-- ==== Sys2Proof/Word.lean ====
section
/-! DEFINITION. The word of the machine: `Int_W` of 00_scope.md R6, a signed integer held in two's
complement in `W` = 32 bits (log entry 1). Every register and every memory cell holds one. -/

namespace Sys2Proof

/-- One `Int_W` (R6): 32 bits, read as a signed integer by `BitVec.toInt`. -/
abbrev Word := BitVec 32

/-- `wrap(z) = ((z + 2^(W-1)) mod 2^W) - 2^(W-1)` of R6, on mathematical integers. The machine's sums
are `BitVec` sums; that they are the `wrap` of the exact sum is a statement, not a definition. -/
def wrap (z : Int) : Int := (z + 2 ^ 31) % 2 ^ 32 - 2 ^ 31

end Sys2Proof
end

