-- ==== Sys2Proof/Config.lean ====
section
/-! DEFINITION. What the hardware fixes (the parameter table of 00_scope.md R5; the fixed points of
20_memory.md R55) and the one value the spec leaves free (the draw of GET). -/

namespace Sys2Proof.Config

/-- `MEM_SIZE` (R5, R40): the number of cells. -/
def memSize : Nat := 2000

/-- `USER_LIMIT` (R5, R42): the user region is `[0, 1000)`, the kernel regions start here. -/
def userLimit : Nat := 1000

/-- `KHIGH_BASE` (R5, R42): Kernel-Low is `[1000, 1500)`, Kernel-High `[1500, 2000)`. -/
def kernelHighBase : Nat := 1500

/-- `TIMER_VECTOR` (R5, R138): the handler address of the timer. -/
def timerVector : Word := 1000#32

/-- `SYSCALL_VECTOR` (R5, R138): the handler address of SYSCALL. -/
def syscallVector : Word := 1500#32

/-- `USER_SP_RESET` (R5, R30). -/
def userSpReset : Word := 1000#32

/-- `KERNEL_SP_RESET` (R5, R21). DEDUCED by the spec (D6), log entry 5; unsafe if the original differs. -/
def kernelSpReset : Word := 2000#32

/-- `FRAME_SIZE` (R5, R28): five cells, all registers but SP. -/
def frameSize : Word := 5#32

/-- What a cell with no entry in the memory list reads as. `IMAGE` is open (D19).
DESIGN CHOICE, log entry 6; unsafe: a proof about `State.reset` can lean on this zero. -/
def unlistedCell : Word := 0#32

/-- The timer period of `State.reset`. The spec leaves it open, at least 1 (R23, R152).
DESIGN CHOICE, log entry 7; unsafe for a statement about a run from `State.reset`. -/
def resetTimerValue : Nat := 1000

/-- The free value of GET (R87, D15): the k-th draw is `freeDraw k + 1`, so any integer from 1 to 100.
No body: nothing can be proved of the value but its range. DESIGN CHOICE (its form), log entry 8. -/
opaque freeDraw : Nat → Fin 100

end Sys2Proof.Config
end

