-- ==== Sys2Proof/Machine/State.lean ====
section
/-! DEFINITION. The state of the machine: the CORE's registers and control state (10_state.md), the Memory
Store's cells (20_memory.md), the observables (00_scope.md R8), and reset (R30, R150, R151). -/

namespace Sys2Proof.Machine

/-- The privilege level (R18, 60_exceptions.md R143). -/
inductive Mode where
  | user
  | kernel
deriving DecidableEq, Repr

/-- The exit codes, in the order of R131. Claims compare names; `ExitCode.number` renders them. -/
inductive ExitCode where
  | success
  | cliFailure
  | forkFailure
  | pipeFailure
  | fileParseFailure
  | invalidOpcode
  | programPathFailure
  | readFailure
  | writeFailure
  | invalidMemAction
  | memoryOutOfBounds
  | kernelMemAccessDenied
  | userMemAccessDenied
  | invalidPortCall
deriving DecidableEq, Repr

/-- The run state (R24). -/
inductive RunState where
  | running
  | halted (code : ExitCode)
deriving DecidableEq, Repr

/-- The two output ports of PUT (42_io.md R88, 60_exceptions.md R147). -/
inductive Port where
  /-- port 1, "prints AC as a number" -/
  | numeric
  /-- port 2, "prints AC as a character" -/
  | character
deriving DecidableEq, Repr

/-- One event of the output stream (R8, R88): the port and the value of AC. Its rendering as text is the
sink's business (D14, log entry 19). -/
structure OutEvent where
  port : Port
  value : Word
deriving DecidableEq, Repr

/-- A request on the bus (20_memory.md R46). The CORE only ever sends `read` and `write`; the numeric values
of the discriminators are symbols (D16), so any other kind is one constructor. -/
inductive Request where
  | read (address : Word)
  | write (address value : Word)
  | otherKind
deriving DecidableEq, Repr

/-- The cells of the Memory Store, by address: addresses strictly rising, no entry equal to
`Config.unlistedCell` (`Memory.wf`). The cell, not a byte, is the addressable unit (R41; log entry 2). -/
abbrev Memory := List (Nat × Word)

/-- The state of the machine. -/
structure State where
  /-- PC (R11) -/
  pc : Word
  /-- IR (R12) -/
  ir : Word
  /-- AC (R13) -/
  ac : Word
  /-- X (R14) -/
  x : Word
  /-- Y (R15) -/
  y : Word
  /-- the active SP (R16) -/
  sp : Word
  /-- the mode (R18) -/
  mode : Mode
  /-- the Interrupt-Enabled flag (R19) -/
  ie : Bool
  /-- the user shadow pointer (R20) -/
  usp : Word
  /-- the kernel shadow pointer (R21) -/
  ksp : Word
  /-- the instruction counter, unbounded (R22, D11) -/
  counter : Nat
  /-- the timer period, constant during a run (R23) -/
  timerValue : Nat
  /-- the run state (R24) -/
  run : RunState
  /-- the cells of the Memory Store (R41) -/
  mem : Memory
  /-- the output stream, oldest event first (R8, R88) -/
  output : List OutEvent
  /-- the requests sent so far, oldest first (R8, R163) -/
  bus : List Request
  /-- the MODEL's own field: how many draws GET has made (D15, log entry 8) -/
  drawIndex : Nat
deriving DecidableEq, Repr

/-- What the host hands the machine before reset is released (R5, R151, R152, R57, D21). -/
structure Launch where
  /-- the configured timer period; at least 1 in a legal configuration (R23, R152) -/
  timerValue : Nat
  /-- the start-up flag of the Memory Store (R151) -/
  loadOk : Bool
  /-- `IMAGE` (R57), in canonical form -/
  image : Memory
  /-- the launch value of IR (R30, D5) -/
  ir : Word
  /-- the launch value of AC (R30, D5) -/
  ac : Word
  /-- the launch value of X (R30, D5) -/
  x : Word
  /-- the launch value of Y (R30, D5) -/
  y : Word
  /-- the launch value of USP (R30, D6) -/
  usp : Word
deriving DecidableEq, Repr

/-- The machine right after reset under a launch (the table of R30; R150; the handshake of R151). -/
def State.launch (l : Launch) : State where
  pc := 0#32
  ir := l.ir
  ac := l.ac
  x := l.x
  y := l.y
  sp := Config.userSpReset
  mode := .user
  ie := true
  usp := l.usp
  ksp := Config.kernelSpReset
  counter := 0
  timerValue := l.timerValue
  run := if l.loadOk then .running else .halted .fileParseFailure
  mem := l.image
  output := []
  bus := []
  drawIndex := 0

/-- The launch that `State.reset` stands for: the open parameters at the values log entries 3, 4, 6 and 7 name.
DESIGN CHOICE; unsafe for a statement that rests on one of these values. -/
def Launch.default : Launch where
  timerValue := Config.resetTimerValue
  loadOk := true
  image := []
  ir := 0#32
  ac := 0#32
  x := 0#32
  y := 0#32
  usp := 0#32

/-- The machine right after reset (R30, R150), with the launch parameters of `Launch.default`. -/
def State.reset : State := State.launch Launch.default

/-- Why the machine has no next state. -/
inductive Fault where
  /-- Raised by `step` alone, on a machine that has halted with `code`: "no step exists from a halted machine"
  (R24). It is the model's stuck state. Safe: the hardware does nothing there either. -/
  | halted (code : ExitCode)
deriving DecidableEq, Repr

/-- Why the model gives no meaning. -/
inductive Refusal where
  /-- Raised by `exec` alone, for an instruction whose meaning is not written. Safe. No arm raises it now. -/
  | notModelled (mnemonic : String)
  /-- Raised by `step` alone, on a state whose `timerValue` is 0: "a machine with `timerValue <= 0` does not
  exist" (R23, R152, D20, U11). Safe: the hardware rejects the configuration before the machine starts. -/
  | timerValueNotPositive
deriving DecidableEq, Repr

/-- The outcome of one instruction or one step. -/
abbrev StepOutcome := Host.Outcome State Fault Refusal

end Sys2Proof.Machine
end

