-- ==== Sys2Proof/Machine/Memory.lean ====
section
/-! DEFINITION. The Memory Store (20_memory.md R40 to R42, R47, R57): its cells as a list in one canonical
form, and how it serves one request. -/

namespace Sys2Proof.Machine

/-- The cell at address `k`. -/
def Memory.read : Memory → Nat → Word
  | [], _ => Config.unlistedCell
  | (a, v) :: rest, k => if a = k then v else Memory.read rest k

/-- The cells with `v` at address `k`; keeps the canonical form. -/
def Memory.write : Memory → Nat → Word → Memory
  | [], k, v => if v = Config.unlistedCell then [] else [(k, v)]
  | (a, w) :: rest, k, v =>
    if k < a then
      if v = Config.unlistedCell then (a, w) :: rest else (k, v) :: (a, w) :: rest
    else if k = a then
      if v = Config.unlistedCell then rest else (k, v) :: rest
    else (a, w) :: Memory.write rest k v

/-- Canonical from address `lo` on: addresses strictly rising, inside the address space, no entry equal to
what an unlisted address reads as. -/
def Memory.wfFrom : Nat → Memory → Bool
  | _, [] => true
  | lo, (a, v) :: rest =>
    decide (lo ≤ a) && decide (a < Config.memSize) && decide (v ≠ Config.unlistedCell) && Memory.wfFrom (a + 1) rest

/-- The canonical form of the cells. -/
def Memory.wf (m : Memory) : Bool := Memory.wfFrom 0 m

/-- The cells with the addresses below `n` taken from a total function. -/
def Memory.ofFunction (f : Nat → Word) : Nat → Memory
  | 0 => []
  | n + 1 => Memory.write (Memory.ofFunction f n) n (f n)

/-- `IMAGE` (R57) is a total function on `[0, 2000)`: its canonical form. -/
def Memory.ofImage (f : Nat → Word) : Memory := Memory.ofFunction f Config.memSize

/-- The three static regions (R42). -/
inductive Region where
  | user
  | kernelLow
  | kernelHigh
deriving DecidableEq, Repr

/-- The region of a cell address; none outside the address space (R40, R42). -/
def regionOf (k : Nat) : Option Region :=
  if k < Config.userLimit then some .user
  else if k < Config.kernelHighBase then some .kernelLow
  else if k < Config.memSize then some .kernelHigh
  else none

/-- The statuses of a response (R46). -/
inductive Status where
  | success
  | readFailure
  | writeFailure
  | invalidMemAction
deriving DecidableEq, Repr

/-- A response on the bus (R46): `value` is meaningful only for a successful READ (D21); where it is not, the
model puts `Config.unlistedCell` there and nothing reads it (log entry 11). -/
structure Response where
  status : Status
  value : Word
deriving DecidableEq, Repr

/-- The Memory Store's own bounds check, `0 <= addr < 2000`, on the signed address (R47). -/
def inBounds (a : Word) : Bool :=
  decide (0 ≤ a.toInt) && decide (a.toInt < (Config.memSize : Int))

/-- The Memory Store serves one request (R47): the response, and the cells afterwards. It knows no mode. -/
def serve (m : Memory) : Request → Response × Memory
  | .read a =>
    if inBounds a then (⟨.success, Memory.read m a.toNat⟩, m)
    else (⟨.readFailure, Config.unlistedCell⟩, m)
  | .write a v =>
    if inBounds a then (⟨.success, Config.unlistedCell⟩, Memory.write m a.toNat v)
    else (⟨.writeFailure, Config.unlistedCell⟩, m)
  | .otherKind => (⟨.invalidMemAction, Config.unlistedCell⟩, m)

end Sys2Proof.Machine
end

