-- ==== Sys2Proof/Machine/Ops.lean ====
section
/-! DEFINITION. The named operations of 00_scope.md R7: the checked accesses, the stack manager, raising a
fatal error, taking an interrupt and returning from one. -/

namespace Sys2Proof.Machine

/-- How an operation ends: with a value and the state it leaves, or at a `raise Fatal(...)` with the state the
machine halts in (60_exceptions.md R133). -/
inductive Res (α : Type) where
  | done (v : α) (s : State)
  | raised (s : State)
deriving DecidableEq, Repr

/-- Go on with `f` unless the operation raised: nothing after a `raise` is done (R133). -/
def Res.andThen {α β : Type} (r : Res α) (f : α → State → Res β) : Res β :=
  match r with
  | .done v s => f v s
  | .raised s => .raised s

/-- The state an operation ends in, raised or not. -/
def Res.state {α : Type} : Res α → State
  | .done _ s => s
  | .raised s => s

/-- An instruction's rule as an outcome. A halt is a next state, since the spec says what it leaves: `run` is
`Halted(code)` and the effects before the `raise` stay (R133, 40_execute_loop.md R76; log entry 9). -/
def settle (r : Res Unit) : StepOutcome := .next r.state

/-- `raise Fatal(CODE)` (R133): the run state becomes `Halted(CODE)`, everything else stays. -/
def raiseFatal (code : ExitCode) (s : State) : State := { s with run := .halted code }

/-- The number of an exit code (R131): its position in the source's list (D7, log entry 18). -/
def ExitCode.number : ExitCode → Nat
  | .success => 0
  | .cliFailure => 1
  | .forkFailure => 2
  | .pipeFailure => 3
  | .fileParseFailure => 4
  | .invalidOpcode => 5
  | .programPathFailure => 6
  | .readFailure => 7
  | .writeFailure => 8
  | .invalidMemAction => 9
  | .memoryOutOfBounds => 10
  | .kernelMemAccessDenied => 11
  | .userMemAccessDenied => 12
  | .invalidPortCall => 13

/-- The exit-code output: presented once the machine has halted (R58, R133). -/
def State.exitCode (s : State) : Option ExitCode :=
  match s.run with
  | .running => none
  | .halted code => some code

/-- The kill output to the Memory Store, asserted on every halt (R58, R133). -/
def State.memoryStoreKilled (s : State) : Bool := s.exitCode.isSome

/-- The verdicts of access control (20_memory.md R43). -/
inductive Verdict where
  | ok
  | outOfBounds
  | kernelDenied
  | userDenied
deriving DecidableEq, Repr

/-- `Check(a, mode)` (R43): bounds first, then the region; signed comparisons. -/
def check (a : Word) (m : Mode) : Verdict :=
  if a.toInt < 0 ∨ a.toInt ≥ (Config.memSize : Int) then .outOfBounds
  else if a.toInt ≥ (Config.userLimit : Int) ∧ m = .user then .kernelDenied
  else if a.toInt < (Config.userLimit : Int) ∧ m = .kernel then .userDenied
  else .ok

/-- The exit code of a refused verdict (60_exceptions.md R132); none for `Ok`. -/
def Verdict.code : Verdict → Option ExitCode
  | .ok => none
  | .outOfBounds => some .memoryOutOfBounds
  | .kernelDenied => some .kernelMemAccessDenied
  | .userDenied => some .userMemAccessDenied

/-- The exit code of a response's status: the code of the same name (R44, R45; D8, log entry 11). -/
def Status.code : Status → Option ExitCode
  | .success => none
  | .readFailure => some .readFailure
  | .writeFailure => some .writeFailure
  | .invalidMemAction => some .invalidMemAction

/-- The state once the Memory Store has served a request whole (R46, R47, R49): the bus record gains it. -/
def State.afterRequest (q : Request) (s : State) : State :=
  { s with mem := (serve s.mem q).2, bus := s.bus ++ [q] }

/-- A checked access at `a` (R44, R45): a refused verdict raises with no request sent; otherwise the request
is sent and its response waited for, and a failure status raises. -/
def access (a : Word) (q : Request) (s : State) : Res Word :=
  match (check a s.mode).code with
  | some code => .raised (raiseFatal code s)
  | none =>
    match (serve s.mem q).1.status.code with
    | some code => .raised (raiseFatal code (s.afterRequest q))
    | none => .done (serve s.mem q).1.value (s.afterRequest q)

/-- `MemRead(a, 1)` (R44). -/
def memRead (a : Word) (s : State) : Res Word := access a (.read a) s

/-- `MemWrite(a, 1, v)` (R45). -/
def memWrite (a v : Word) (s : State) : Res Unit :=
  (access a (.write a v) s).andThen fun _ s => .done () s

/-- `PushValue(v)` (10_state.md R26): SP is decremented before the write, and stays so if the write raises. -/
def pushValue (v : Word) (s : State) : Res Unit :=
  memWrite (s.sp - 1#32) v { s with sp := s.sp - 1#32 }

/-- `PopValue()` (R27): SP is incremented after the read. -/
def popValue (s : State) : Res Word :=
  (memRead s.sp s).andThen fun v s => .done v { s with sp := s.sp + 1#32 }

/-- `PushFrame()` (R28): five writes below SP in register-index order, then SP moves. The layout is D3
(log entry 13). -/
def pushFrame (s : State) : Res Unit :=
  (memWrite (s.sp - 1#32) s.pc s).andThen fun _ s =>
  (memWrite (s.sp - 2#32) s.ir s).andThen fun _ s =>
  (memWrite (s.sp - 3#32) s.ac s).andThen fun _ s =>
  (memWrite (s.sp - 4#32) s.x s).andThen fun _ s =>
  (memWrite (s.sp - 5#32) s.y s).andThen fun _ s =>
  .done () { s with sp := s.sp - Config.frameSize }

/-- `PopFrame()` (R29): the mirror of `pushFrame`; each register is written as its cell is read. -/
def popFrame (s : State) : Res Unit :=
  (memRead s.sp s).andThen fun v s =>
  (memRead (s.sp + 1#32) { s with y := v }).andThen fun v s =>
  (memRead (s.sp + 2#32) { s with x := v }).andThen fun v s =>
  (memRead (s.sp + 3#32) { s with ac := v }).andThen fun v s =>
  (memRead (s.sp + 4#32) { s with ir := v }).andThen fun v s =>
  .done () { s with pc := v, sp := s.sp + Config.frameSize }

/-- The mode switch of a taken interrupt, before the frame is pushed (R136; the order is C2, D4, log
entry 12): the user SP is saved, the kernel SP loaded, Kernel mode entered, interrupts disabled. -/
def enterKernel (s : State) : State :=
  { s with usp := s.sp, sp := s.ksp, mode := .kernel, ie := false }

/-- `TriggerInterrupt(h)` (R136): taken in `(User, IE)`, else dropped without trace (R137; D9, log entry 14). -/
def triggerInterrupt (h : Word) (s : State) : Res Unit :=
  if s.mode = .user ∧ s.ie = true then
    (pushFrame (enterKernel s)).andThen fun _ s => .done () { s with pc := h }
  else .done () s

/-- `ReturnFromInterrupt()` (R139): no precondition on the mode (D17, log entry 15). -/
def returnFromInterrupt (s : State) : Res Unit :=
  (popFrame s).andThen fun _ s =>
  .done () { s with ksp := s.sp, sp := s.usp, mode := .user, ie := true }

end Sys2Proof.Machine
end

