-- ==== Sys2Proof/Machine/Alu.lean ====
section
/-! DEFINITION. Arithmetic (43_alu.md): two's-complement sums that wrap, no flag, no trap (R96). -/

namespace Sys2Proof.Machine

/-- ADDX (R90). -/
def execAddx (s : State) : StepOutcome := settle <| .done () { s with ac := s.ac + s.x }

/-- ADDY (R91). -/
def execAddy (s : State) : StepOutcome := settle <| .done () { s with ac := s.ac + s.y }

/-- SUBX (R92). -/
def execSubx (s : State) : StepOutcome := settle <| .done () { s with ac := s.ac - s.x }

/-- SUBY (R93). -/
def execSuby (s : State) : StepOutcome := settle <| .done () { s with ac := s.ac - s.y }

/-- INCX (R94). -/
def execIncx (s : State) : StepOutcome := settle <| .done () { s with x := s.x + 1#32 }

/-- DECX (R95). -/
def execDecx (s : State) : StepOutcome := settle <| .done () { s with x := s.x - 1#32 }

end Sys2Proof.Machine
end

