-- ==== Sys2Proof/Machine/Flags.lean ====
section
/-! DEFINITION. The machine has no status flags and no condition codes (10_state.md R17): no instruction
computes one. What stands here is the one condition the machine tests, AC against zero. -/

namespace Sys2Proof.Machine

/-- `AC == 0`, on all `W` bits (45_control.md R111, R112; 43_alu.md R96). -/
def acIsZero (s : State) : Bool := s.ac == 0#32

end Sys2Proof.Machine
end

