-- ==== Sys2Proof/Machine/Operands.lean ====
section
/-! DEFINITION. Operand fetch (40_execute_loop.md R73) and the effective addresses of 41_load_store.md. -/

namespace Sys2Proof.Machine

/-- `FetchOperand()` (R73): a checked read at PC; PC advances only if it does not raise. -/
def fetchOperand (s : State) : Res Word :=
  (memRead s.pc s).andThen fun v s => .done v { s with pc := s.pc + 1#32 }

/-- The target read of JUMP and JUMP_RETURN: the cell at PC, PC not advanced (R73, 45_control.md R110, R113;
90_conflicts.md C3). -/
def peekOperand (s : State) : Res Word := memRead s.pc s

/-- Absolute indexed by X: `operand + X`, wrapped (R83, 43_alu.md R96). -/
def addrIdxX (base : Word) (s : State) : Word := base + s.x

/-- Absolute indexed by Y: `operand + Y`, wrapped (R84, R96). -/
def addrIdxY (base : Word) (s : State) : Word := base + s.y

/-- Stack-pointer relative indexed by X: `SP + X`, wrapped (R85, R96). -/
def addrSpX (s : State) : Word := s.sp + s.x

/-- The port a PUT operand names; none is any other port (42_io.md R88). -/
def portOf (p : Word) : Option Port :=
  if p = 1#32 then some .numeric
  else if p = 2#32 then some .character
  else none

/-- The number of a port (R88). -/
def Port.number : Port → Word
  | .numeric => 1#32
  | .character => 2#32

end Sys2Proof.Machine
end

