-- ==== Sys2Proof/Machine/Control.lean ====
section
/-! DEFINITION. Control transfer (45_control.md). Targets are absolute and are not checked when PC is written:
a bad one shows at the next fetch. -/

namespace Sys2Proof.Machine

/-- JUMP (R110): the target is read without advancing PC (90_conflicts.md C3). -/
def execJump (s : State) : StepOutcome :=
  settle <| (peekOperand s).andThen fun t s => .done () { s with pc := t }

/-- JUMP_IF_EQ (R111): the operand is fetched whether or not the jump is taken. -/
def execJumpIfEq (s : State) : StepOutcome :=
  settle <| (fetchOperand s).andThen fun t s =>
    .done () (if acIsZero s then { s with pc := t } else s)

/-- JUMP_IF_NEQ (R112). -/
def execJumpIfNeq (s : State) : StepOutcome :=
  settle <| (fetchOperand s).andThen fun t s =>
    .done () (if acIsZero s then s else { s with pc := t })

/-- JUMP_RETURN (R113): the push of `PC + 1` comes first, then the read of the target. -/
def execJumpReturn (s : State) : StepOutcome :=
  settle <| (pushValue (s.pc + 1#32) s).andThen fun _ s =>
    (peekOperand s).andThen fun t s => .done () { s with pc := t }

/-- RETURN (R114). -/
def execRet (s : State) : StepOutcome :=
  settle <| (popValue s).andThen fun v s => .done () { s with pc := v }

end Sys2Proof.Machine
end

