-- ==== Sys2Proof/Machine/Copy.lean ====
section
/-! DEFINITION. Register copies (44_copy.md): one whole word between AC and X, Y or the active SP. -/

namespace Sys2Proof.Machine

/-- COPY_TO_X (R100). -/
def execCopyToX (s : State) : StepOutcome := settle <| .done () { s with x := s.ac }

/-- COPY_FR_X (R101). -/
def execCopyFrX (s : State) : StepOutcome := settle <| .done () { s with ac := s.x }

/-- COPY_TO_Y (R102). -/
def execCopyToY (s : State) : StepOutcome := settle <| .done () { s with y := s.ac }

/-- COPY_FR_Y (R103). -/
def execCopyFrY (s : State) : StepOutcome := settle <| .done () { s with ac := s.y }

/-- COPY_TO_SP (R104): the active SP, unchecked; the shadow pointers are untouched. -/
def execCopyToSp (s : State) : StepOutcome := settle <| .done () { s with sp := s.ac }

/-- COPY_FR_SP (R105): the active SP. -/
def execCopyFrSp (s : State) : StepOutcome := settle <| .done () { s with ac := s.sp }

end Sys2Proof.Machine
end

