-- ==== Sys2Proof/Machine/InOut.lean ====
section
/-! DEFINITION. Input and output (42_io.md). -/

namespace Sys2Proof.Machine

/-- `Draw(1, 100)` (R87, D15): the next free draw, an integer from 1 to 100. -/
def draw (s : State) : Word := BitVec.ofNat 32 ((Config.freeDraw s.drawIndex).val + 1)

/-- `Emit(p, v)` (R88): the event goes to the end of the output stream. -/
def emit (p : Port) (v : Word) (s : State) : State := { s with output := s.output ++ [⟨p, v⟩] }

/-- GET (R87): AC takes a fresh draw. -/
def execGet (s : State) : StepOutcome :=
  settle <| .done () { s with ac := draw s, drawIndex := s.drawIndex + 1 }

/-- PUT (R88): an invalid port raises after the operand fetch, with nothing emitted. -/
def execPut (s : State) : StepOutcome :=
  settle <| (fetchOperand s).andThen fun p s =>
    match portOf p with
    | some port => .done () (emit port s.ac s)
    | none => .raised (raiseFatal .invalidPortCall s)

end Sys2Proof.Machine
end

