-- ==== Sys2Proof/Machine/LoadStore.lean ====
section
/-! DEFINITION. The loads and the store (41_load_store.md). On entry the fetch is done: IR holds the opcode, PC
is the address of the cell after the opcode cell. -/

namespace Sys2Proof.Machine

/-- LOAD_VAL (R80). -/
def execLoadVal (s : State) : StepOutcome :=
  settle <| (fetchOperand s).andThen fun v s => .done () { s with ac := v }

/-- LOAD_ADDR (R81). -/
def execLoadAddr (s : State) : StepOutcome :=
  settle <| (fetchOperand s).andThen fun a s =>
    (memRead a s).andThen fun v s => .done () { s with ac := v }

/-- LOAD_IND_ADDR (R82). -/
def execLoadIndAddr (s : State) : StepOutcome :=
  settle <| (fetchOperand s).andThen fun a s =>
    (memRead a s).andThen fun p s =>
    (memRead p s).andThen fun v s => .done () { s with ac := v }

/-- LOAD_IDX_X_ADDR (R83). -/
def execLoadIdxXAddr (s : State) : StepOutcome :=
  settle <| (fetchOperand s).andThen fun b s =>
    (memRead (addrIdxX b s) s).andThen fun v s => .done () { s with ac := v }

/-- LOAD_IDX_Y_ADDR (R84). -/
def execLoadIdxYAddr (s : State) : StepOutcome :=
  settle <| (fetchOperand s).andThen fun b s =>
    (memRead (addrIdxY b s) s).andThen fun v s => .done () { s with ac := v }

/-- LOAD_SPX (R85). -/
def execLoadSpx (s : State) : StepOutcome :=
  settle <| (memRead (addrSpX s) s).andThen fun v s => .done () { s with ac := v }

/-- STORE (R86). -/
def execStore (s : State) : StepOutcome :=
  settle <| (fetchOperand s).andThen fun a s => memWrite a s.ac s

end Sys2Proof.Machine
end

