-- ==== Sys2Proof/Machine/Stack.lean ====
section
/-! DEFINITION. The stack instructions (46_stack.md), on the active stack. -/

namespace Sys2Proof.Machine

/-- PUSH (R115). -/
def execPush (s : State) : StepOutcome := settle <| pushValue s.ac s

/-- POP (R116). -/
def execPop (s : State) : StepOutcome :=
  settle <| (popValue s).andThen fun v s => .done () { s with ac := v }

end Sys2Proof.Machine
end

