-- ==== Sys2Proof/Machine/System.lean ====
section
/-! DEFINITION. The system instructions and the illegal opcode (47_system.md). -/

namespace Sys2Proof.Machine

/-- SYSCALL (R120). -/
def execSyscall (s : State) : StepOutcome := settle <| triggerInterrupt Config.syscallVector s

/-- SYSRETURN (R121). -/
def execSysreturn (s : State) : StepOutcome := settle <| returnFromInterrupt s

/-- END (R122): `raise Fatal(SUCCESS)`. -/
def execHalt (s : State) : StepOutcome := settle <| .raised (raiseFatal .success s)

/-- Any other opcode value (R123): `raise Fatal(INVALID_OPCODE)`. -/
def execIllegal (s : State) : StepOutcome := settle <| .raised (raiseFatal .invalidOpcode s)

end Sys2Proof.Machine
end

