-- ==== Sys2Proof/Syntax.lean ====
section
/-! DEFINITION. The 31 instructions (30_encoding.md R63), one constructor per row of the opcode table, in
the table's order. An instruction's operand cell is fetched by the instruction's own rule while it executes
(R65, R72, R73), so it is no argument here (log entry 20); `Code` is an instruction with its operand cell. -/

namespace Sys2Proof

/-- The instruction set (R63). -/
inductive Instr where
  /-- R80: load immediate. -/
  | loadVal
  /-- R81: load absolute. -/
  | loadAddr
  /-- R82: load indirect. -/
  | loadIndAddr
  /-- R83: load indexed by X. -/
  | loadIdxXAddr
  /-- R84: load indexed by Y. -/
  | loadIdxYAddr
  /-- R85: load from the stack, indexed by X. -/
  | loadSpx
  /-- R86: store AC. -/
  | store
  /-- R87: load a random number. -/
  | get
  /-- R88: write AC to an output port. -/
  | put
  /-- R90: add X to AC. -/
  | addx
  /-- R91: add Y to AC. -/
  | addy
  /-- R92: subtract X from AC. -/
  | subx
  /-- R93: subtract Y from AC. -/
  | suby
  /-- R100: copy AC to X. -/
  | copyToX
  /-- R101: copy X to AC. -/
  | copyFrX
  /-- R102: copy AC to Y. -/
  | copyToY
  /-- R103: copy Y to AC. -/
  | copyFrY
  /-- R104: copy AC to SP. -/
  | copyToSp
  /-- R105: copy SP to AC. -/
  | copyFrSp
  /-- R110: unconditional jump. -/
  | jump
  /-- R111: jump if AC is zero. -/
  | jumpIfEq
  /-- R112: jump if AC is not zero. -/
  | jumpIfNeq
  /-- R113: call. -/
  | jumpReturn
  /-- R114: return from a call. -/
  | ret
  /-- R94: increment X. -/
  | incx
  /-- R95: decrement X. -/
  | decx
  /-- R115: push AC. -/
  | push
  /-- R116: pop into AC. -/
  | pop
  /-- R120: environment call. -/
  | syscall
  /-- R121: return from interrupt. -/
  | sysreturn
  /-- R122: stop the machine. -/
  | halt
deriving DecidableEq, Repr

/-- The two instruction formats (R60). -/
inductive Format where
  /-- one cell: the opcode -/
  | o
  /-- two cells: the opcode, then the operand -/
  | oi
deriving DecidableEq, Repr

/-- The format column of the opcode table (R60, R63). The length is decided by the opcode alone (R65). -/
def Instr.format : Instr → Format
  | .loadVal | .loadAddr | .loadIndAddr | .loadIdxXAddr | .loadIdxYAddr | .store | .put
  | .jump | .jumpIfEq | .jumpIfNeq | .jumpReturn => .oi
  | .loadSpx | .get | .addx | .addy | .subx | .suby | .copyToX | .copyFrX | .copyToY | .copyFrY
  | .copyToSp | .copyFrSp | .ret | .incx | .decx | .push | .pop | .syscall | .sysreturn | .halt => .o

/-- The number of cells of a format (R60, R65). -/
def Format.cells : Format → Nat
  | .o => 1
  | .oi => 2

/-- The mnemonic of an instruction (R67, R63). -/
def Instr.mnemonic : Instr → String
  | .loadVal => "LOAD_VAL"
  | .loadAddr => "LOAD_ADDR"
  | .loadIndAddr => "LOAD_IND_ADDR"
  | .loadIdxXAddr => "LOAD_IDX_X_ADDR"
  | .loadIdxYAddr => "LOAD_IDX_Y_ADDR"
  | .loadSpx => "LOAD_SPX"
  | .store => "STORE"
  | .get => "GET"
  | .put => "PUT"
  | .addx => "ADDX"
  | .addy => "ADDY"
  | .subx => "SUBX"
  | .suby => "SUBY"
  | .copyToX => "COPY_TO_X"
  | .copyFrX => "COPY_FR_X"
  | .copyToY => "COPY_TO_Y"
  | .copyFrY => "COPY_FR_Y"
  | .copyToSp => "COPY_TO_SP"
  | .copyFrSp => "COPY_FR_SP"
  | .jump => "JUMP"
  | .jumpIfEq => "JUMP_IF_EQ"
  | .jumpIfNeq => "JUMP_IF_NEQ"
  | .jumpReturn => "JUMP_RETURN"
  | .ret => "RETURN"
  | .incx => "INCX"
  | .decx => "DECX"
  | .push => "PUSH"
  | .pop => "POP"
  | .syscall => "SYSCALL"
  | .sysreturn => "SYSRETURN"
  | .halt => "END"

/-- An instruction as it lies in memory: the instruction and, if it has one, its operand cell (R60, R62). -/
structure Code where
  /-- the instruction the opcode cell names -/
  instr : Instr
  /-- the operand cell, used whole as a signed word (R62) -/
  operand : Option Word
deriving DecidableEq, Repr

end Sys2Proof
end

