-- ==== Sys2Proof/Machine/Dispatch.lean ====
section
/-! DEFINITION. `Execute(IR)` once the opcode is decoded (40_execute_loop.md R72): one arm per instruction.
On entry the fetch is done: IR holds the opcode, PC is the address of the cell after the opcode cell. -/

namespace Sys2Proof.Machine

def exec (i : Instr) (s : State) : Host.Outcome State Fault Refusal :=
  match i with
  | .loadVal => Sys2Proof.Machine.execLoadVal s
  | .loadAddr => Sys2Proof.Machine.execLoadAddr s
  | .loadIndAddr => Sys2Proof.Machine.execLoadIndAddr s
  | .loadIdxXAddr => Sys2Proof.Machine.execLoadIdxXAddr s
  | .loadIdxYAddr => Sys2Proof.Machine.execLoadIdxYAddr s
  | .loadSpx => Sys2Proof.Machine.execLoadSpx s
  | .store => Sys2Proof.Machine.execStore s
  | .get => Sys2Proof.Machine.execGet s
  | .put => Sys2Proof.Machine.execPut s
  | .addx => Sys2Proof.Machine.execAddx s
  | .addy => Sys2Proof.Machine.execAddy s
  | .subx => Sys2Proof.Machine.execSubx s
  | .suby => Sys2Proof.Machine.execSuby s
  | .copyToX => Sys2Proof.Machine.execCopyToX s
  | .copyFrX => Sys2Proof.Machine.execCopyFrX s
  | .copyToY => Sys2Proof.Machine.execCopyToY s
  | .copyFrY => Sys2Proof.Machine.execCopyFrY s
  | .copyToSp => Sys2Proof.Machine.execCopyToSp s
  | .copyFrSp => Sys2Proof.Machine.execCopyFrSp s
  | .jump => Sys2Proof.Machine.execJump s
  | .jumpIfEq => Sys2Proof.Machine.execJumpIfEq s
  | .jumpIfNeq => Sys2Proof.Machine.execJumpIfNeq s
  | .jumpReturn => Sys2Proof.Machine.execJumpReturn s
  | .ret => Sys2Proof.Machine.execRet s
  | .incx => Sys2Proof.Machine.execIncx s
  | .decx => Sys2Proof.Machine.execDecx s
  | .push => Sys2Proof.Machine.execPush s
  | .pop => Sys2Proof.Machine.execPop s
  | .syscall => Sys2Proof.Machine.execSyscall s
  | .sysreturn => Sys2Proof.Machine.execSysreturn s
  | .halt => Sys2Proof.Machine.execHalt s

end Sys2Proof.Machine
end

