-- ==== Sys2Proof/WellFormed.lean ====
section
/-! DEFINITION. When an instruction with its operand cell is well formed: the operand cell is there exactly
when the format has one (30_encoding.md R60). The operand cell has no illegal values at decode time (R64), so
nothing is asked of its value, and every `Instr` by itself is well formed. -/

namespace Sys2Proof

/-- A format-`OI` instruction has its operand cell (R60). -/
def Code.operandPresent (c : Code) : Bool :=
  c.instr.format != .oi || c.operand.isSome

/-- A format-`O` instruction has no operand cell (R60). -/
def Code.operandAbsent (c : Code) : Bool :=
  c.instr.format != .o || c.operand.isNone

/-- Both checks (R60). -/
def Code.wellFormed (c : Code) : Bool :=
  c.operandPresent && c.operandAbsent

end Sys2Proof
end

