-- ==== Sys2Proof/Decode.lean ====
section
/-! DEFINITION. The decoder and the encoder (30_encoding.md R60 to R65), each written from the opcode map of
R63. Opcode numbers other than 1, 2, 7, 9, 50 are the spec's decision D2 (log entry 17). -/

namespace Sys2Proof

/-- Why cells are no instruction. Rejecting is safe: the hardware halts there (R64, R123). -/
inductive DecodeReject where
  /-- raised by `decodeOpcode` on a cell value that is none of the 31 opcodes (R64) -/
  | illegalOpcode (cell : Word)
  /-- raised by `decode` on no cells at all -/
  | noOpcodeCell
  /-- raised by `decode` when a format-`OI` instruction has no second cell -/
  | noOperandCell (i : Instr)
deriving DecidableEq, Repr

/-- The opcode map `OPC` of R63, in the order of the opcode numbers. -/
def opcodeTable : List (Word × Instr) :=
  [ (1#32, .loadVal), (2#32, .loadAddr), (3#32, .loadIndAddr), (4#32, .loadIdxXAddr),
    (5#32, .loadIdxYAddr), (6#32, .loadSpx), (7#32, .store), (8#32, .get), (9#32, .put),
    (10#32, .addx), (11#32, .addy), (12#32, .subx), (13#32, .suby), (14#32, .copyToX),
    (15#32, .copyFrX), (16#32, .copyToY), (17#32, .copyFrY), (18#32, .copyToSp),
    (19#32, .copyFrSp), (20#32, .jump), (21#32, .jumpIfEq), (22#32, .jumpIfNeq),
    (23#32, .jumpReturn), (24#32, .ret), (25#32, .incx), (26#32, .decx), (27#32, .push),
    (28#32, .pop), (29#32, .syscall), (30#32, .sysreturn), (50#32, .halt) ]

/-- The row of the map whose opcode number equals the whole cell; there is no mask (R61). -/
def lookupOpcode (cell : Word) : List (Word × Instr) → Option Instr
  | [] => none
  | (n, i) :: rows => if cell = n then some i else lookupOpcode cell rows

/-- Decoding reads the opcode cell and nothing else (R61, R72). -/
def decodeOpcode (cell : Word) : Except DecodeReject Instr :=
  match lookupOpcode cell opcodeTable with
  | some i => .ok i
  | none => .error (.illegalOpcode cell)

/-- The first instruction of a list of cells, and the cells after it (R60, R65). -/
def decode : List Word → Except DecodeReject (Code × List Word)
  | [] => .error .noOpcodeCell
  | cell :: rest =>
    match decodeOpcode cell with
    | .error e => .error e
    | .ok i =>
      match i.format, rest with
      | .o, _ => .ok (⟨i, none⟩, rest)
      | .oi, v :: rest' => .ok (⟨i, some v⟩, rest')
      | .oi, [] => .error (.noOperandCell i)

/-- A list of cells read as instructions one after another (R60). -/
def decodeProgram : List Word → Except DecodeReject (List Code)
  | [] => .ok []
  | cell :: rest =>
    match decodeOpcode cell with
    | .error e => .error e
    | .ok i =>
      match i.format with
      | .o =>
        match decodeProgram rest with
        | .error e => .error e
        | .ok cs => .ok (⟨i, none⟩ :: cs)
      | .oi =>
        match rest with
        | [] => .error (.noOperandCell i)
        | v :: rest' =>
          match decodeProgram rest' with
          | .error e => .error e
          | .ok cs => .ok (⟨i, some v⟩ :: cs)

/-- The opcode number of an instruction (R63). -/
def encodeOpcode : Instr → Word
  | .loadVal => 1#32
  | .loadAddr => 2#32
  | .loadIndAddr => 3#32
  | .loadIdxXAddr => 4#32
  | .loadIdxYAddr => 5#32
  | .loadSpx => 6#32
  | .store => 7#32
  | .get => 8#32
  | .put => 9#32
  | .addx => 10#32
  | .addy => 11#32
  | .subx => 12#32
  | .suby => 13#32
  | .copyToX => 14#32
  | .copyFrX => 15#32
  | .copyToY => 16#32
  | .copyFrY => 17#32
  | .copyToSp => 18#32
  | .copyFrSp => 19#32
  | .jump => 20#32
  | .jumpIfEq => 21#32
  | .jumpIfNeq => 22#32
  | .jumpReturn => 23#32
  | .ret => 24#32
  | .incx => 25#32
  | .decx => 26#32
  | .push => 27#32
  | .pop => 28#32
  | .syscall => 29#32
  | .sysreturn => 30#32
  | .halt => 50#32

/-- The cells of an instruction: the opcode cell, then the operand cell if there is one (R60, R62). -/
def encode (c : Code) : List Word :=
  encodeOpcode c.instr :: c.operand.toList

/-- The cells of a list of instructions, one after another (R60). -/
def encodeProgram : List Code → List Word
  | [] => []
  | c :: cs => encode c ++ encodeProgram cs

/-- Cell `k` of an instruction whose bits are `w`, numbered as the opcode table numbers them: bit 0 is the
least significant bit of the first cell, and every bit from `nbits` on is 0. -/
def tableCell (nbits w k : Nat) : Word :=
  BitVec.ofNat 32 (w % 2 ^ nbits / 2 ^ (32 * k))

/-- The instruction the decoder reads from the bits `w` of an opcode-table row. The longest instruction has
two cells (R60). -/
def decodeTableWord (nbits w : Nat) : Option Instr :=
  match decode [tableCell nbits w 0, tableCell nbits w 1] with
  | .ok (c, _) => some c.instr
  | .error _ => none

end Sys2Proof
end

