-- ==== Sys2Proof/Machine/Engine.lean ====
section
/-! DEFINITION. The parts of one step around the instruction (40_execute_loop.md): fetch, and what follows
execution; and the placing of an instruction where the next fetch reads it. -/

namespace Sys2Proof.Machine

/-- Fetch (R71): a checked read at PC into IR, then PC advances; if it raises, IR and PC are unchanged. -/
def fetch (s : State) : Res Unit :=
  (memRead s.pc s).andThen fun v s => .done () { s with ir := v, pc := s.pc + 1#32 }

/-- The timer check (R74, 60_exceptions.md R140): the trigger is called when the counter is a multiple of the
period. -/
def timerCheck (s : State) : State :=
  if s.counter % s.timerValue = 0 then (triggerInterrupt Config.timerVector s).state else s

/-- After execute (R74): nothing if the instruction raised or was END (R75; D13, log entry 16); otherwise the
counter is incremented and the timer check runs on the state the instruction left. -/
def afterExecute (s : State) : State :=
  match s.run with
  | .running => timerCheck { s with counter := s.counter + 1 }
  | .halted _ => s

/-- The cells with `v` at the address word `a`, if that address exists (20_memory.md R40). -/
def placeCell (a v : Word) (m : Memory) : Memory :=
  if inBounds a then Memory.write m a.toNat v else m

/-- The cells with an instruction's two cells (the longest length, 30_encoding.md R60) placed from address `a`
on. It stands for what the loader put into the image (log entry 23). -/
def placeInstr (a : Word) (nbits w : Nat) (m : Memory) : Memory :=
  placeCell (a + 1#32) (tableCell nbits w 1) (placeCell a (tableCell nbits w 0) m)

end Sys2Proof.Machine
end

