-- ==== Sys2Proof/Machine/Execute.lean ====
section
/-! DEFINITION. Decode and dispatch on IR, and what follows (40_execute_loop.md R70, R72). -/

namespace Sys2Proof.Machine

/-- Decode and execute, then what follows (R70, R72), on the state the fetch left. An opcode that is none of the
31 is R123's fatal error. -/
def decodeAndExecute (s : State) : StepOutcome :=
  match decodeOpcode s.ir with
  | .error _ => execIllegal s
  | .ok i =>
    match exec i s with
    | .next t => .next (afterExecute t)
    | .fault f => .fault f
    | .refused r => .refused r

end Sys2Proof.Machine
end

