-- ==== Sys2Proof/Machine/Step.lean ====
section
/-! DEFINITION. One step of the machine (40_execute_loop.md R70): fetch, decode, execute, and the counter and
timer check, as one atomic step (00_scope.md R2, log entry 22). -/

namespace Sys2Proof.Machine

/-- One step (R70). A halted machine has none (10_state.md R24); a machine whose timer period is 0 does not
exist (R23). -/
def step (s : State) : Host.Outcome State Fault Refusal :=
  match s.run with
  | .halted code => .fault (.halted code)
  | .running =>
    if s.timerValue = 0 then .refused .timerValueNotPositive
    else
      match fetch s with
      | .raised t => .next t
      | .done _ t => decodeAndExecute t

/-- `s` with an instruction stored where the next step fetches it: at PC and the cell after it (R71, R73). -/
def State.withFetchWord (s : State) (nbits w : Nat) : State :=
  { s with mem := placeInstr s.pc nbits w s.mem }

end Sys2Proof.Machine
end

