-- ==== Sys2Proof/Machine/Loader.lean ====
section
/-! DEFINITION. The program text format (30_encoding.md R66): how the external loader turns lines of text into
the image and the start-up flag. The loader is outside the CORE (00_scope.md R4 (a)); the step never uses this
file. What R66 leaves silent (N20) is log entry 24. -/

namespace Sys2Proof.Machine

/-- What a line means (R66). -/
inductive LineMeaning where
  /-- nothing but spaces: ignored -/
  | blank
  /-- `.` followed by digits: the load cursor moves -/
  | setCursor (address : Nat)
  /-- a digit starts a decimal value, loaded at the cursor -/
  | loadValue (value : Nat)
  /-- any other first character: ignored -/
  | comment
  /-- none of the patterns: the load aborts -/
  | malformed
deriving DecidableEq, Repr

/-- The decimal value of leading digits, most significant first, on top of `acc`. What follows the digits is not
read (R66). -/
def decimalFrom : Nat → List Char → Nat
  | acc, [] => acc
  | acc, c :: cs => if c.isDigit then decimalFrom (10 * acc + (c.toNat - 48)) cs else acc

/-- A line without its leading spaces (R66). -/
def skipSpaces : List Char → List Char
  | [] => []
  | c :: cs => if c = ' ' then skipSpaces cs else c :: cs

/-- The meaning of a line by its first significant character (R66). -/
def lineMeaning (line : List Char) : LineMeaning :=
  match skipSpaces line with
  | [] => .blank
  | c :: cs =>
    if c = '.' then
      match cs with
      | [] => .malformed
      | d :: _ => if d.isDigit then .setCursor (decimalFrom 0 cs) else .malformed
    else if c.isDigit then .loadValue (decimalFrom 0 (c :: cs))
    else .comment

/-- The largest value a line can load: the largest `Int_W` (00_scope.md R6), so no line writes a negative cell
(R66). -/
def maxLoadValue : Nat := 2147483647

/-- Load lines from a cursor into an image (R66); none when the load aborts. A value that is no `Int_W` is not
loaded under another sign: it aborts, as a value loaded past the last cell does (DESIGN CHOICE, log entry 24). -/
def loadLines : Nat → Memory → List (List Char) → Option Memory
  | _, m, [] => some m
  | cursor, m, line :: rest =>
    match lineMeaning line with
    | .blank => loadLines cursor m rest
    | .comment => loadLines cursor m rest
    | .setCursor a => loadLines a m rest
    | .loadValue v =>
      if cursor < Config.memSize ∧ v ≤ maxLoadValue then
        loadLines (cursor + 1) (Memory.write m cursor (BitVec.ofNat 32 v)) rest
      else none
    | .malformed => none

/-- A launch with a program text loaded over its image, the cursor starting at `start` (R66): the flag of R151
says whether the load went through. -/
def Launch.withProgram (l : Launch) (start : Nat) (lines : List (List Char)) : Launch :=
  match loadLines start l.image lines with
  | some m => { l with image := m, loadOk := true }
  | none => { l with loadOk := false }

end Sys2Proof.Machine
end

