-- ==== Sys2Proof/Safety.lean ====
section
/-! DEFINITION. What a legal state and a safe run are, in the spec's terms, and the tables the statements speak
of. Nothing here is used by the step. -/

namespace Sys2Proof.Machine

/-- The cell a word addresses. -/
def State.cell (s : State) (a : Word) : Word := Memory.read s.mem a.toNat

/-- The state with requests added to the bus record. -/
def State.record (s : State) (qs : List Request) : State := { s with bus := s.bus ++ qs }

/-- What the fetch leaves when it does not raise (40_execute_loop.md R71). -/
def State.fetched (s : State) : State :=
  { s with ir := s.cell s.pc, pc := s.pc + 1#32, bus := s.bus ++ [.read s.pc] }

/-- The two combinations of mode and IE that the spec calls reachable (10_state.md R25). -/
def State.controlPair (s : State) : Bool :=
  match s.mode with
  | .user => s.ie
  | .kernel => !s.ie

/-- The invariant of the machine: the cells in canonical form, the control pair legal (R25), the timer period
positive (R23). -/
def State.legal (s : State) : Bool :=
  Memory.wf s.mem && s.controlPair && decide (0 < s.timerValue)

/-- The exit codes the CORE raises during a run (60_exceptions.md R131, column "raised by the CORE?", less the
rows marked unreachable or at start only). -/
def ExitCode.raisedInRun : ExitCode → Bool
  | .success | .invalidOpcode | .memoryOutOfBounds | .kernelMemAccessDenied | .userMemAccessDenied
  | .invalidPortCall => true
  | .cliFailure | .forkFailure | .pipeFailure | .fileParseFailure | .programPathFailure | .readFailure
  | .writeFailure | .invalidMemAction => false

/-- A safe outcome of a step: the machine runs on, or has ended with SUCCESS (R24, R122, R130). -/
def safeOutcome : StepOutcome → Bool
  | .next s => decide (s.run = .running) || decide (s.run = .halted .success)
  | .fault _ => false
  | .refused _ => false

/-- What the bus has seen, as the change it made to the cells (20_memory.md R48, R50): WRITE requests in the
order they were sent. -/
def applyWrites : List Request → Memory → Memory
  | [], m => m
  | .write a v :: rest, m => applyWrites rest (Memory.write m a.toNat v)
  | .read _ :: rest, m => applyWrites rest m
  | .otherKind :: rest, m => applyWrites rest m

/-- The five WRITEs of a frame pushed below `sp` (10_state.md R28, 70_reset_and_hazards.md R163). -/
def frameWrites (sp pc ir ac x y : Word) : List Request :=
  [.write (sp - 1#32) pc, .write (sp - 2#32) ir, .write (sp - 3#32) ac, .write (sp - 4#32) x, .write (sp - 5#32) y]

/-- What a taken interrupt with handler address `h` leaves when its frame writes do not raise
(60_exceptions.md R136): the user SP saved, the frame below the kernel SP, Kernel mode, the handler next. -/
def State.interrupted (s : State) (h : Word) : State :=
  { s with
    usp := s.sp, sp := s.ksp - 5#32, mode := .kernel, ie := false, pc := h,
    mem := applyWrites (frameWrites s.ksp s.pc s.ir s.ac s.x s.y) s.mem,
    bus := s.bus ++ frameWrites s.ksp s.pc s.ir s.ac s.x s.y }

/-- What a return from interrupt leaves when its frame reads do not raise (R139, 10_state.md R29). -/
def State.returned (s : State) : State :=
  { s with
    y := s.cell s.sp, x := s.cell (s.sp + 1#32), ac := s.cell (s.sp + 2#32), ir := s.cell (s.sp + 3#32),
    pc := s.cell (s.sp + 4#32), ksp := s.sp + 5#32, sp := s.usp, mode := .user, ie := true,
    bus := s.bus ++ [.read s.sp, .read (s.sp + 1#32), .read (s.sp + 2#32), .read (s.sp + 3#32), .read (s.sp + 4#32)] }

/-- All five frame cells below `sp` may be written in Kernel mode. -/
def frameFits (sp : Word) : Bool :=
  [1#32, 2#32, 3#32, 4#32, 5#32].all fun d => check (sp - d) .kernel == .ok

/-- All five frame cells from `sp` up may be read in a mode. -/
def frameReadable (sp : Word) (m : Mode) : Bool :=
  [0#32, 1#32, 2#32, 3#32, 4#32].all fun d => check (sp + d) m == .ok

/-- Two states that agree on everything but the cells below 1000 (70_reset_and_hazards.md R156). -/
def State.agreeAboveUser (s t : State) : Prop :=
  t = { s with mem := t.mem } ∧ ∀ k, Config.userLimit ≤ k → Memory.read s.mem k = Memory.read t.mem k

/-- The table of R163: the transactions of an instruction after its opcode fetch, every check passing. `s` is the
state the fetch left, so `s.pc` is `p + 1`. -/
def instrTransactions (i : Instr) (s : State) : List Request :=
  let operand := Memory.read s.mem s.pc.toNat
  match i with
  | .loadVal | .put | .jump | .jumpIfEq | .jumpIfNeq => [.read s.pc]
  | .loadAddr => [.read s.pc, .read operand]
  | .loadIndAddr => [.read s.pc, .read operand, .read (Memory.read s.mem operand.toNat)]
  | .loadIdxXAddr => [.read s.pc, .read (operand + s.x)]
  | .loadIdxYAddr => [.read s.pc, .read (operand + s.y)]
  | .loadSpx => [.read (s.sp + s.x)]
  | .store => [.read s.pc, .write operand s.ac]
  | .get | .addx | .addy | .subx | .suby | .incx | .decx | .copyToX | .copyFrX | .copyToY | .copyFrY | .copyToSp
  | .copyFrSp | .halt => []
  | .jumpReturn => [.write (s.sp - 1#32) (s.pc + 1#32), .read s.pc]
  | .ret | .pop => [.read s.sp]
  | .push => [.write (s.sp - 1#32) s.ac]
  | .syscall =>
    if s.mode = .user ∧ s.ie = true then frameWrites s.ksp s.pc s.ir s.ac s.x s.y else []
  | .sysreturn =>
    [.read s.sp, .read (s.sp + 1#32), .read (s.sp + 2#32), .read (s.sp + 3#32), .read (s.sp + 4#32)]

end Sys2Proof.Machine
end

