-- ==== Sys2Proof/Certificates/Slice0/Obligations.lean ====
section
/-! DEFINITION. The statements about this model that the provers are asked for. Each docstring names the rule of
spec/ it rests on. Where a statement speaks of the state an instruction starts from, the fetch is done: PC is the
address of the cell after the opcode cell (41_load_store.md). -/

open Sys2Proof Sys2Proof.Machine

/-! ### Encoding -/

/-- Decode and encode agree, with every operand, in both directions (R60 to R65, with the opcode numbers of decision
D2, log entry 17): the first instruction of some cells is `c` with `rest` left over exactly when `c` is well formed
and the cells are its encoding followed by `rest`; and the cells that decode to a list of instructions are exactly
the encoding of that list of well-formed instructions. -/
def Obligations.DecodeAndEncodeAgree : Prop :=
  (∀ (ws rest : List Word) (c : Code), decode ws = .ok (c, rest) ↔ c.wellFormed = true ∧ ws = encode c ++ rest) ∧
  (∀ (ws : List Word) (cs : List Code),
    decodeProgram ws = .ok cs ↔ (∀ c ∈ cs, c.wellFormed = true) ∧ encodeProgram cs = ws)

/-- The illegal opcode cells are every value up to 0, 31 to 49, and 51 upward (R64; D2, log entry 17). -/
def Obligations.DecodeRejectsExactlyTheOtherCellValues : Prop :=
  ∀ w : Word, decodeOpcode w = .error (.illegalOpcode w) ↔
    w.toInt ≤ 0 ∨ (31 ≤ w.toInt ∧ w.toInt ≤ 49) ∨ 51 ≤ w.toInt

/-- Cells written out from the opcode map, one or more of every family (R63; D2, log entry 17). -/
def Obligations.SampleOpcodeCellsDecode : Prop :=
  decodeOpcode 0x00000001#32 = .ok .loadVal ∧ decodeOpcode 0x00000002#32 = .ok .loadAddr ∧
  decodeOpcode 0x00000007#32 = .ok .store ∧ decodeOpcode 0x00000009#32 = .ok .put ∧
  decodeOpcode 0x0000000A#32 = .ok .addx ∧ decodeOpcode 0x0000000E#32 = .ok .copyToX ∧
  decodeOpcode 0x00000017#32 = .ok .jumpReturn ∧ decodeOpcode 0x0000001B#32 = .ok .push ∧
  decodeOpcode 0x0000001E#32 = .ok .sysreturn ∧ decodeOpcode 0x00000032#32 = .ok .halt

/-! ### Access control and memory -/

/-- R43: the four verdicts by the signed address and the mode; and (R44, R45, R132, R133) an access that is refused
halts with the verdict's code, sends no request and leaves everything else alone, for reads and writes alike. The code
of each verdict is derived by the spec (R44, R132); what a halted state keeps is decision D13, log entry 16. -/
def Obligations.AccessControlVerdicts : Prop :=
  (∀ (a : Word) (m : Mode),
    (check a m = .outOfBounds ↔ a.toInt < 0 ∨ 2000 ≤ a.toInt) ∧
    (check a m = .kernelDenied ↔ 1000 ≤ a.toInt ∧ a.toInt < 2000 ∧ m = .user) ∧
    (check a m = .userDenied ↔ 0 ≤ a.toInt ∧ a.toInt < 1000 ∧ m = .kernel) ∧
    (check a m = .ok ↔
      (0 ≤ a.toInt ∧ a.toInt < 1000 ∧ m = .user) ∨ (1000 ≤ a.toInt ∧ a.toInt < 2000 ∧ m = .kernel))) ∧
  (∀ (a v : Word) (s : State), check a s.mode ≠ .ok →
    ∃ code, (check a s.mode).code = some code ∧
      memRead a s = .raised { s with run := .halted code } ∧ memWrite a v s = .raised { s with run := .halted code })

/-- R47: the Memory Store's own bounds check and its answers to the three kinds of request; it knows no mode. The
cells after an accepted WRITE hold the value at that address and are as before elsewhere. -/
def Obligations.MemoryStoreServesRequests : Prop :=
  ∀ (m : Memory) (a v : Word), Memory.wf m = true →
    (0 ≤ a.toInt ∧ a.toInt < 2000 →
      (serve m (.read a)).1 = ⟨.success, Memory.read m a.toNat⟩ ∧
      (serve m (.write a v)).1.status = .success ∧
      ∀ k, Memory.read (serve m (.write a v)).2 k = if k = a.toNat then v else Memory.read m k) ∧
    (¬(0 ≤ a.toInt ∧ a.toInt < 2000) →
      (serve m (.read a)).1.status = .readFailure ∧
      (serve m (.write a v)).1.status = .writeFailure ∧ (serve m (.write a v)).2 = m) ∧
    (serve m (.read a)).2 = m ∧
    (serve m .otherKind).1.status = .invalidMemAction ∧ (serve m .otherKind).2 = m

/-- R45, R50: a write the current mode permits succeeds, a read of the same address then gives the value written,
and every other cell reads as before. -/
def Obligations.ReadAfterWriteGivesTheValueWritten : Prop :=
  ∀ (a v : Word) (s : State), Memory.wf s.mem = true → check a s.mode = .ok →
    ∃ t, memWrite a v s = .done () t ∧ memRead a t = .done v (t.record [.read a]) ∧
      ∀ k, k ≠ a.toNat → Memory.read t.mem k = Memory.read s.mem k

/-- R57: every total function on the 2000 addresses has a canonical list of cells that reads as it does. -/
def Obligations.EveryImageHasCanonicalCells : Prop :=
  ∀ f : Nat → Word, Memory.wf (Memory.ofImage f) = true ∧ ∀ k < 2000, Memory.read (Memory.ofImage f) k = f k

/-- Canonical cells that read alike at every address are the same data (the model's own form, log entry 2). -/
def Obligations.CanonicalCellsAreDeterminedByTheirReads : Prop :=
  ∀ m n : Memory, Memory.wf m = true → Memory.wf n = true → (∀ k, Memory.read m k = Memory.read n k) → m = n

/-! ### Stack manager -/

/-- R26: SP is decremented first; the write goes to the new SP; if it raises, SP keeps the decremented value. The
first push after reset writes cell 999. -/
def Obligations.PushValueWritesBelowTheStackPointer : Prop :=
  (∀ (v : Word) (s : State), check (s.sp - 1#32) s.mode = .ok →
    pushValue v s = .done () { s with
      sp := s.sp - 1#32, mem := Memory.write s.mem (s.sp - 1#32).toNat v,
      bus := s.bus ++ [.write (s.sp - 1#32) v] }) ∧
  (∀ (v : Word) (s : State) (code : ExitCode), (check (s.sp - 1#32) s.mode).code = some code →
    pushValue v s = .raised { s with sp := s.sp - 1#32, run := .halted code }) ∧
  (∀ (v : Word) (l : Launch), (pushValue v (State.launch l)).state.bus = [.write 999#32 v])

/-- R27: the read comes first and SP is incremented after it; if the read raises, SP is not incremented; the two
empty stacks raise. -/
def Obligations.PopValueReadsAtTheStackPointer : Prop :=
  (∀ s : State, check s.sp s.mode = .ok →
    popValue s = .done (s.cell s.sp) { s with sp := s.sp + 1#32, bus := s.bus ++ [.read s.sp] }) ∧
  (∀ (s : State) (code : ExitCode), (check s.sp s.mode).code = some code →
    popValue s = .raised { s with run := .halted code }) ∧
  (∀ s : State, s.mode = .user → s.sp = 1000#32 →
    popValue s = .raised { s with run := .halted .kernelMemAccessDenied }) ∧
  (∀ s : State, s.mode = .kernel → s.sp = 2000#32 →
    popValue s = .raised { s with run := .halted .memoryOutOfBounds })

/-- R28, R29: PushFrame then PopFrame restores PC, IR, AC, X, Y and SP whatever those five registers became in
between. It does not rest on the layout D3. -/
def Obligations.PopFrameUndoesPushFrame : Prop :=
  ∀ (s : State) (pc ir ac x y : Word), Memory.wf s.mem = true →
    (∀ d ∈ [1#32, 2#32, 3#32, 4#32, 5#32], check (s.sp - d) s.mode = .ok) →
    ∃ t, pushFrame s = .done () t ∧ t.sp = s.sp - 5#32 ∧
      ∃ seen, popFrame { t with pc := pc, ir := ir, ac := ac, x := x, y := y } =
        .done () { s with mem := t.mem, bus := seen }

/-! ### The step -/

/-- R71: fetch by a checked read at PC in the current mode; if it raises, IR and PC are unchanged. -/
def Obligations.FetchReadsTheOpcodeCell : Prop :=
  ∀ s : State,
    (check s.pc s.mode = .ok →
      fetch s = .done () { s with ir := s.cell s.pc, pc := s.pc + 1#32, bus := s.bus ++ [.read s.pc] }) ∧
    (s.pc.toInt < 0 ∨ 2000 ≤ s.pc.toInt → fetch s = .raised { s with run := .halted .memoryOutOfBounds }) ∧
    (1000 ≤ s.pc.toInt ∧ s.pc.toInt < 2000 ∧ s.mode = .user →
      fetch s = .raised { s with run := .halted .kernelMemAccessDenied }) ∧
    (0 ≤ s.pc.toInt ∧ s.pc.toInt < 1000 ∧ s.mode = .kernel →
      fetch s = .raised { s with run := .halted .userMemAccessDenied })

/-- R70, R72: the step runs the instruction the opcode cell at PC decodes to, on the state the fetch left, and
then what follows execution (`AfterExecuteCountsAndChecksTheTimer`). The meaning always answers a next state. -/
def Obligations.StepRunsTheDecodedInstruction : Prop :=
  ∀ (s : State) (i : Instr), s.run = .running → 0 < s.timerValue → check s.pc s.mode = .ok →
    decodeOpcode (s.cell s.pc) = .ok i →
    ∃ t, exec i s.fetched = .next t ∧ step s = .next (afterExecute t)

/-- R71, R123, R133: where a step runs no instruction: a refused fetch halts with nothing else changed; an illegal
opcode halts with INVALID_OPCODE after the fetch, IR holding the cell and PC past it (which cells are illegal rests
on D2, log entry 17). The counter is not incremented in either case. -/
def Obligations.StepWithoutAnInstructionHalts : Prop :=
  (∀ (s : State) (code : ExitCode), s.run = .running → 0 < s.timerValue → (check s.pc s.mode).code = some code →
    step s = .next { s with run := .halted code }) ∧
  (∀ (s : State) (why : DecodeReject), s.run = .running → 0 < s.timerValue → check s.pc s.mode = .ok →
    decodeOpcode (s.cell s.pc) = .error why →
    step s = .next { s with
      ir := s.cell s.pc, pc := s.pc + 1#32, bus := s.bus ++ [.read s.pc], run := .halted .invalidOpcode })

/-- R74: after an instruction that neither raised nor was END the counter goes up by one, in either mode, and the
timer is called exactly at its multiples, on the state the instruction left, the counter already incremented even if
the entry raises; after one that raised or was END nothing is done (R22, R75: decision D13, log entry 16). -/
def Obligations.AfterExecuteCountsAndChecksTheTimer : Prop :=
  ∀ u : State,
    (u.run ≠ .running → afterExecute u = u) ∧
    (u.run = .running → (afterExecute u).counter = u.counter + 1) ∧
    (u.run = .running → (u.counter + 1) % u.timerValue ≠ 0 → afterExecute u = { u with counter := u.counter + 1 }) ∧
    (u.run = .running → (u.counter + 1) % u.timerValue = 0 →
      afterExecute u = (triggerInterrupt 1000#32 { u with counter := u.counter + 1 }).state)

/-- R24: a halted machine has no step (a fault here, the model's form: log entry 9); a running one stays running or
halts, by END or by a fatal error of the codes that R131 says the CORE can reach; the run state at reset is `Running`
unless the start-up flag says the load failed. That no failure status of the Memory Store is reached is derived (R44,
R131) and rests on log entries 10 and 11. -/
def Obligations.HaltedMachineHasNoStep : Prop :=
  (∀ (s : State) (code : ExitCode), s.run = .halted code → step s = .fault (.halted code)) ∧
  (∀ s t : State, step s = .next t →
    t.run = .running ∨ ∃ code, t.run = .halted code ∧ code.raisedInRun = true) ∧
  (∀ l : Launch, (State.launch l).run = if l.loadOk = true then .running else .halted .fileParseFailure)

/-- R70, R130: a running machine with a positive timer period always has a next state, whatever its registers and
cells hold. -/
def Obligations.RunningMachineAlwaysSteps : Prop :=
  ∀ s : State, s.run = .running → 0 < s.timerValue → ∃ t, step s = .next t

/-- R22, R23: a step leaves the timer period alone; a step after which the machine runs on adds one to the counter,
and one that halts the machine adds at most one. -/
def Obligations.StepCountsAtMostOneInstruction : Prop :=
  ∀ s t : State, step s = .next t →
    t.timerValue = s.timerValue ∧ (t.run = .running → t.counter = s.counter + 1) ∧
    (t.counter = s.counter ∨ t.counter = s.counter + 1)

/-! ### Reset -/

/-- R30, R150: the state the machine starts in, for every launch. KSP = 2000 is the spec's own derivation (D6, log
entry 5); the launch values of IR, AC, X, Y, USP are parameters. -/
def Obligations.LaunchLeavesTheResetTable : Prop :=
  ∀ l : Launch, State.launch l =
    { pc := 0#32, ir := l.ir, ac := l.ac, x := l.x, y := l.y, sp := 1000#32, mode := .user, ie := true,
      usp := l.usp, ksp := 2000#32, counter := 0, timerValue := l.timerValue, run := (State.launch l).run,
      mem := l.image, output := [], bus := [], drawIndex := 0 }

/-- R151: a failed load halts the machine at once with FILE_PARSE_FAILURE, no request issued and no step taken; after
a successful one the first step begins. -/
def Obligations.FailedLoadHaltsBeforeAnyRequest : Prop :=
  ∀ l : Launch,
    (l.loadOk = false →
      (State.launch l).exitCode = some .fileParseFailure ∧ (State.launch l).bus = [] ∧
      step (State.launch l) = .fault (.halted .fileParseFailure)) ∧
    (l.loadOk = true → 0 < l.timerValue →
      (State.launch l).exitCode = none ∧ ∃ t, step (State.launch l) = .next t)

/-! ### Results of the instructions -/

/-- R100 to R105: the six copies complete in every state; each writes its one destination register and nothing
else. COPY_TO_SP writes the active SP, unchecked. -/
def Obligations.RegisterCopiesComplete : Prop :=
  ∀ s : State,
    exec .copyToX s = .next { s with x := s.ac } ∧ exec .copyFrX s = .next { s with ac := s.x } ∧
    exec .copyToY s = .next { s with y := s.ac } ∧ exec .copyFrY s = .next { s with ac := s.y } ∧
    exec .copyToSp s = .next { s with sp := s.ac } ∧ exec .copyFrSp s = .next { s with ac := s.sp }

/-- R90 to R95, R96: the six arithmetic instructions complete in every state; the new value of the destination is
the `wrap` of the exact sum or difference (width and wrap are decisions D1, D12, log entry 1); nothing else changes. -/
def Obligations.ArithmeticWrapsTheExactResult : Prop :=
  ∀ s : State,
    (∃ v : Word, v.toInt = wrap (s.ac.toInt + s.x.toInt) ∧ exec .addx s = .next { s with ac := v }) ∧
    (∃ v : Word, v.toInt = wrap (s.ac.toInt + s.y.toInt) ∧ exec .addy s = .next { s with ac := v }) ∧
    (∃ v : Word, v.toInt = wrap (s.ac.toInt - s.x.toInt) ∧ exec .subx s = .next { s with ac := v }) ∧
    (∃ v : Word, v.toInt = wrap (s.ac.toInt - s.y.toInt) ∧ exec .suby s = .next { s with ac := v }) ∧
    (∃ v : Word, v.toInt = wrap (s.x.toInt + 1) ∧ exec .incx s = .next { s with x := v }) ∧
    (∃ v : Word, v.toInt = wrap (s.x.toInt - 1) ∧ exec .decx s = .next { s with x := v })

/-- R80, whole: the encoding, the result, and the operand fetch that is refused (AC and PC unchanged). -/
def Obligations.LoadValLoadsTheOperand : Prop :=
  (∀ v : Word, encode ⟨.loadVal, some v⟩ = [1#32, v] ∧ decode [1#32, v] = .ok (⟨.loadVal, some v⟩, [])) ∧
  (∀ s : State, check s.pc s.mode = .ok →
    exec .loadVal s = .next { s with ac := s.cell s.pc, pc := s.pc + 1#32, bus := s.bus ++ [.read s.pc] }) ∧
  (∀ (s : State) (code : ExitCode), (check s.pc s.mode).code = some code →
    exec .loadVal s = .next { s with run := .halted code })

/-- R81, whole: the encoding, the result, the operand fetch that is refused, the read that is refused (AC unchanged,
PC past the operand), and the addresses 2000 and -1. -/
def Obligations.LoadAddrLoadsTheCell : Prop :=
  (∀ a : Word, encode ⟨.loadAddr, some a⟩ = [2#32, a] ∧ decode [2#32, a] = .ok (⟨.loadAddr, some a⟩, [])) ∧
  (∀ s : State, check s.pc s.mode = .ok → check (s.cell s.pc) s.mode = .ok →
    exec .loadAddr s = .next { s with
      ac := s.cell (s.cell s.pc), pc := s.pc + 1#32, bus := s.bus ++ [.read s.pc, .read (s.cell s.pc)] }) ∧
  (∀ (s : State) (code : ExitCode), (check s.pc s.mode).code = some code →
    exec .loadAddr s = .next { s with run := .halted code }) ∧
  (∀ (s : State) (code : ExitCode), check s.pc s.mode = .ok → (check (s.cell s.pc) s.mode).code = some code →
    exec .loadAddr s = .next { s with pc := s.pc + 1#32, bus := s.bus ++ [.read s.pc], run := .halted code }) ∧
  (∀ s : State, check s.pc s.mode = .ok → s.cell s.pc = 2000#32 ∨ s.cell s.pc = -1#32 →
    exec .loadAddr s = .next { s with
      pc := s.pc + 1#32, bus := s.bus ++ [.read s.pc], run := .halted .memoryOutOfBounds })

/-- R82 (opcode D2): AC receives the cell whose address the addressed cell holds; each of the three reads is checked
in the current mode, in order, and the first that is refused halts. -/
def Obligations.LoadIndAddrFollowsThePointerCell : Prop :=
  (∀ s : State, check s.pc s.mode = .ok → check (s.cell s.pc) s.mode = .ok →
    check (s.cell (s.cell s.pc)) s.mode = .ok →
    exec .loadIndAddr s = .next { s with
      ac := s.cell (s.cell (s.cell s.pc)), pc := s.pc + 1#32,
      bus := s.bus ++ [.read s.pc, .read (s.cell s.pc), .read (s.cell (s.cell s.pc))] }) ∧
  (∀ (s : State) (code : ExitCode), (check s.pc s.mode).code = some code →
    exec .loadIndAddr s = .next { s with run := .halted code }) ∧
  (∀ (s : State) (code : ExitCode), check s.pc s.mode = .ok → (check (s.cell s.pc) s.mode).code = some code →
    exec .loadIndAddr s = .next { s with pc := s.pc + 1#32, bus := s.bus ++ [.read s.pc], run := .halted code }) ∧
  (∀ (s : State) (code : ExitCode), check s.pc s.mode = .ok → check (s.cell s.pc) s.mode = .ok →
    (check (s.cell (s.cell s.pc)) s.mode).code = some code →
    exec .loadIndAddr s = .next { s with
      pc := s.pc + 1#32, bus := s.bus ++ [.read s.pc, .read (s.cell s.pc)], run := .halted code })

/-- R83, R84, R85 (opcodes D2, wrap D12): the three indexed loads complete when the operand cell (if any) and the
effective address are accessible; only the wrapped sum is checked; a refused sum halts with AC unchanged. -/
def Obligations.IndexedLoadsReadTheWrappedSum : Prop :=
  (∀ s : State, check s.pc s.mode = .ok → check (s.cell s.pc + s.x) s.mode = .ok →
    exec .loadIdxXAddr s = .next { s with
      ac := s.cell (s.cell s.pc + s.x), pc := s.pc + 1#32, bus := s.bus ++ [.read s.pc, .read (s.cell s.pc + s.x)] }) ∧
  (∀ s : State, check s.pc s.mode = .ok → check (s.cell s.pc + s.y) s.mode = .ok →
    exec .loadIdxYAddr s = .next { s with
      ac := s.cell (s.cell s.pc + s.y), pc := s.pc + 1#32, bus := s.bus ++ [.read s.pc, .read (s.cell s.pc + s.y)] }) ∧
  (∀ s : State, check (s.sp + s.x) s.mode = .ok →
    exec .loadSpx s = .next { s with ac := s.cell (s.sp + s.x), bus := s.bus ++ [.read (s.sp + s.x)] }) ∧
  (∀ (s : State) (code : ExitCode), check s.pc s.mode = .ok → (check (s.cell s.pc + s.x) s.mode).code = some code →
    exec .loadIdxXAddr s = .next { s with pc := s.pc + 1#32, bus := s.bus ++ [.read s.pc], run := .halted code }) ∧
  (∀ (s : State) (code : ExitCode), check s.pc s.mode = .ok → (check (s.cell s.pc + s.y) s.mode).code = some code →
    exec .loadIdxYAddr s = .next { s with pc := s.pc + 1#32, bus := s.bus ++ [.read s.pc], run := .halted code }) ∧
  (∀ (s : State) (code : ExitCode), (check (s.sp + s.x) s.mode).code = some code →
    exec .loadSpx s = .next { s with run := .halted code })

/-- R86, whole: the encoding, the result (AC in the addressed cell, every other cell as before, AC unchanged), the
operand fetch that is refused, and the write that is refused (memory unchanged). -/
def Obligations.StoreWritesTheCell : Prop :=
  (∀ a : Word, encode ⟨.store, some a⟩ = [7#32, a] ∧ decode [7#32, a] = .ok (⟨.store, some a⟩, [])) ∧
  (∀ s : State, Memory.wf s.mem = true → check s.pc s.mode = .ok → check (s.cell s.pc) s.mode = .ok →
    ∃ m, exec .store s = .next { s with
        pc := s.pc + 1#32, mem := m, bus := s.bus ++ [.read s.pc, .write (s.cell s.pc) s.ac] } ∧
      ∀ k, Memory.read m k = if k = (s.cell s.pc).toNat then s.ac else Memory.read s.mem k) ∧
  (∀ (s : State) (code : ExitCode), (check s.pc s.mode).code = some code →
    exec .store s = .next { s with run := .halted code }) ∧
  (∀ (s : State) (code : ExitCode), check s.pc s.mode = .ok → (check (s.cell s.pc) s.mode).code = some code →
    exec .store s = .next { s with pc := s.pc + 1#32, bus := s.bus ++ [.read s.pc], run := .halted code })

/-- R87 (opcode D2): GET completes in every state; AC receives the free draw, whatever it is, which lies in
`[1, 100]`; nothing else the spec names changes. `drawIndex` is the model's own field (log entry 8). -/
def Obligations.GetDrawsFromOneToOneHundred : Prop :=
  ∀ s : State, exec .get s = .next { s with ac := draw s, drawIndex := s.drawIndex + 1 } ∧
    1 ≤ (draw s).toInt ∧ (draw s).toInt ≤ 100

/-- R88 (the event, not its rendering: D14, log entry 19): port 1 and port 2 emit AC; any other operand halts with
INVALID_PORT_CALL after the operand fetch, nothing emitted; a refused operand fetch halts first. -/
def Obligations.PutEmitsOnPortsOneAndTwo : Prop :=
  (∀ s : State, check s.pc s.mode = .ok → s.cell s.pc = 1#32 →
    exec .put s = .next { s with
      pc := s.pc + 1#32, bus := s.bus ++ [.read s.pc], output := s.output ++ [⟨.numeric, s.ac⟩] }) ∧
  (∀ s : State, check s.pc s.mode = .ok → s.cell s.pc = 2#32 →
    exec .put s = .next { s with
      pc := s.pc + 1#32, bus := s.bus ++ [.read s.pc], output := s.output ++ [⟨.character, s.ac⟩] }) ∧
  (∀ s : State, check s.pc s.mode = .ok → s.cell s.pc ≠ 1#32 → s.cell s.pc ≠ 2#32 →
    exec .put s = .next { s with
      pc := s.pc + 1#32, bus := s.bus ++ [.read s.pc], run := .halted .invalidPortCall }) ∧
  (∀ (s : State) (code : ExitCode), (check s.pc s.mode).code = some code →
    exec .put s = .next { s with run := .halted code })

/-- R110, R111, R112 (opcodes D2): the three jumps complete when the operand cell is accessible; a conditional jump
that is not taken goes on after the operand. -/
def Obligations.JumpsGoToTheOperand : Prop :=
  ∀ s : State, check s.pc s.mode = .ok →
    exec .jump s = .next { s with pc := s.cell s.pc, bus := s.bus ++ [.read s.pc] } ∧
    exec .jumpIfEq s = .next { s with
      pc := if s.ac.toInt = 0 then s.cell s.pc else s.pc + 1#32, bus := s.bus ++ [.read s.pc] } ∧
    exec .jumpIfNeq s = .next { s with
      pc := if s.ac.toInt = 0 then s.pc + 1#32 else s.cell s.pc, bus := s.bus ++ [.read s.pc] }

/-- R113 (opcode D2): the return address is pushed first, then the target is read: where the push overwrites the
operand cell the target is the return address, else it is the operand. -/
def Obligations.JumpReturnPushesThenJumps : Prop :=
  ∀ s : State, Memory.wf s.mem = true → check (s.sp - 1#32) s.mode = .ok → check s.pc s.mode = .ok →
    exec .jumpReturn s = .next { s with
      sp := s.sp - 1#32, pc := if s.sp - 1#32 = s.pc then s.pc + 1#32 else s.cell s.pc,
      mem := Memory.write s.mem (s.sp - 1#32).toNat (s.pc + 1#32),
      bus := s.bus ++ [.write (s.sp - 1#32) (s.pc + 1#32), .read s.pc] }

/-- R114, R115, R116 (opcodes D2): RETURN, PUSH and POP complete when the stack cell they use is accessible. -/
def Obligations.StackInstructionsComplete : Prop :=
  (∀ s : State, check s.sp s.mode = .ok →
    exec .ret s = .next { s with pc := s.cell s.sp, sp := s.sp + 1#32, bus := s.bus ++ [.read s.sp] } ∧
    exec .pop s = .next { s with ac := s.cell s.sp, sp := s.sp + 1#32, bus := s.bus ++ [.read s.sp] }) ∧
  (∀ s : State, check (s.sp - 1#32) s.mode = .ok →
    exec .push s = .next { s with
      sp := s.sp - 1#32, mem := Memory.write s.mem (s.sp - 1#32).toNat s.ac,
      bus := s.bus ++ [.write (s.sp - 1#32) s.ac] })

/-- R113 to R116, R26, R27: where the stack access is refused: a push leaves SP decremented, a pop leaves SP alone;
JUMP_RETURN may also be refused at its target read, with the return address already pushed. -/
def Obligations.RefusedStackAccessHalts : Prop :=
  ∀ (s : State) (code : ExitCode),
    ((check s.sp s.mode).code = some code →
      exec .ret s = .next { s with run := .halted code } ∧ exec .pop s = .next { s with run := .halted code }) ∧
    ((check (s.sp - 1#32) s.mode).code = some code →
      exec .push s = .next { s with sp := s.sp - 1#32, run := .halted code } ∧
      exec .jumpReturn s = .next { s with sp := s.sp - 1#32, run := .halted code }) ∧
    (check (s.sp - 1#32) s.mode = .ok → (check s.pc s.mode).code = some code →
      exec .jumpReturn s = .next { s with
        sp := s.sp - 1#32, mem := Memory.write s.mem (s.sp - 1#32).toNat (s.pc + 1#32),
        bus := s.bus ++ [.write (s.sp - 1#32) (s.pc + 1#32)], run := .halted code })

/-- R73: every two-cell instruction but JUMP_RETURN (which pushes first) halts, with nothing changed, when its operand
cell is refused; JUMP and JUMP_RETURN end as they would with `FetchOperand`. -/
def Obligations.RefusedOperandFetchHalts : Prop :=
  (∀ (i : Instr) (s : State) (code : ExitCode), i.format = .oi → i ≠ .jumpReturn →
    (check s.pc s.mode).code = some code → exec i s = .next { s with run := .halted code }) ∧
  (∀ s : State, exec .jump s = settle ((fetchOperand s).andThen fun t u => .done () { u with pc := t })) ∧
  (∀ s : State, exec .jumpReturn s =
    settle ((pushValue (s.pc + 1#32) s).andThen fun _ u =>
      (fetchOperand u).andThen fun t u => .done () { u with pc := t }))

/-- R120, R136 (opcode D2, layout D3, order D4): SYSCALL in `(User, IE)` completes when the five frame cells below KSP
may be written in Kernel mode; the five cells hold PC, IR, AC, X, Y and every other cell is as before. -/
def Obligations.SyscallEntersTheHandler : Prop :=
  ∀ s : State, Memory.wf s.mem = true → s.mode = .user → s.ie = true → frameFits s.ksp = true →
    exec .syscall s = .next (s.interrupted 1500#32) ∧
    (s.interrupted 1500#32).cell (s.ksp - 1#32) = s.pc ∧ (s.interrupted 1500#32).cell (s.ksp - 2#32) = s.ir ∧
    (s.interrupted 1500#32).cell (s.ksp - 3#32) = s.ac ∧ (s.interrupted 1500#32).cell (s.ksp - 4#32) = s.x ∧
    (s.interrupted 1500#32).cell (s.ksp - 5#32) = s.y ∧
    ∀ k, (∀ d ∈ [1#32, 2#32, 3#32, 4#32, 5#32], k ≠ (s.ksp - d).toNat) →
      Memory.read (s.interrupted 1500#32).mem k = Memory.read s.mem k

/-- R137: an interrupt triggered in Kernel mode is dropped without trace, whatever IE holds, and so is one in
`(User, IE = false)` (that last case is decision D9, log entry 14); SYSCALL then does nothing at all. -/
def Obligations.InterruptsAreDroppedWithoutTrace : Prop :=
  ∀ (s : State) (h : Word), s.mode = .kernel ∨ s.ie = false →
    triggerInterrupt h s = .done () s ∧ exec .syscall s = .next s

/-- R136: an entry whose first frame write is refused (a bad KSP) halts with the mode already switched and nothing
pushed. -/
def Obligations.BadKernelStackPointerHaltsTheEntry : Prop :=
  ∀ (s : State) (code : ExitCode), s.mode = .user → s.ie = true → (check (s.ksp - 1#32) .kernel).code = some code →
    exec .syscall s = .next { s with usp := s.sp, sp := s.ksp, mode := .kernel, ie := false, run := .halted code }

/-- R121, R139 (opcode D2, layout D3, no guard D17): SYSRETURN completes, in either mode, when the five cells from SP
up are readable in the mode it runs in; they give Y, X, AC, IR, PC; KSP receives SP + 5, SP receives USP. Where the
first of the five reads is refused it halts with nothing changed. -/
def Obligations.SysreturnRestoresTheFrame : Prop :=
  (∀ s : State, frameReadable s.sp s.mode = true →
    exec .sysreturn s = .next { s with
      y := s.cell s.sp, x := s.cell (s.sp + 1#32), ac := s.cell (s.sp + 2#32), ir := s.cell (s.sp + 3#32),
      pc := s.cell (s.sp + 4#32), ksp := s.sp + 5#32, sp := s.usp, mode := .user, ie := true,
      bus := s.bus ++ [.read s.sp, .read (s.sp + 1#32), .read (s.sp + 2#32), .read (s.sp + 3#32),
        .read (s.sp + 4#32)] }) ∧
  (∀ (s : State) (code : ExitCode), (check s.sp s.mode).code = some code →
    exec .sysreturn s = .next { s with run := .halted code })

/-- R122 (not counted: D13, log entry 16): END completes in every state, the machine halted with SUCCESS and nothing
else changed, and the counter and the timer are left alone. -/
def Obligations.EndHaltsWithSuccess : Prop :=
  ∀ s : State, exec .halt s = .next { s with run := .halted .success } ∧
    afterExecute { s with run := .halted .success } = { s with run := .halted .success }

/-! ### Frames -/

/-- R86, R113, R115, R26: STORE, PUSH and JUMP_RETURN change no cell but the one they store to, whether or not they
halt: the operand's address for STORE, SP - 1 for the other two. -/
def Obligations.StoringInstructionsChangeOneCell : Prop :=
  ∀ s t : State,
    (exec .store s = .next t → ∀ k, k ≠ (s.cell s.pc).toNat → Memory.read t.mem k = Memory.read s.mem k) ∧
    (exec .push s = .next t → ∀ k, k ≠ (s.sp - 1#32).toNat → Memory.read t.mem k = Memory.read s.mem k) ∧
    (exec .jumpReturn s = .next t → ∀ k, k ≠ (s.sp - 1#32).toNat → Memory.read t.mem k = Memory.read s.mem k)

/-- R28, R163: SYSCALL changes no cell but the five of the frame, and every other instruction changes no cell at
all (the storing ones apart). -/
def Obligations.OtherInstructionsLeaveTheCells : Prop :=
  ∀ s t : State,
    (exec .syscall s = .next t → ∀ k, (∀ d ∈ [1#32, 2#32, 3#32, 4#32, 5#32], k ≠ (s.ksp - d).toNat) →
      Memory.read t.mem k = Memory.read s.mem k) ∧
    (∀ i : Instr, i ∉ [.store, .push, .jumpReturn, .syscall] → exec i s = .next t → t.mem = s.mem)

/-- R12 to R16: no instruction but the writers those rules list changes IR, AC, X, Y or SP. -/
def Obligations.RegistersChangeOnlyByTheirWriters : Prop :=
  ∀ (i : Instr) (s t : State), exec i s = .next t →
    (i ∉ [.loadVal, .loadAddr, .loadIndAddr, .loadIdxXAddr, .loadIdxYAddr, .loadSpx, .get, .addx, .addy, .subx, .suby,
        .copyFrX, .copyFrY, .copyFrSp, .pop, .sysreturn] → t.ac = s.ac) ∧
    (i ∉ [.copyToX, .incx, .decx, .sysreturn] → t.x = s.x) ∧
    (i ∉ [.copyToY, .sysreturn] → t.y = s.y) ∧
    (i ∉ [.copyToSp, .push, .pop, .jumpReturn, .ret, .syscall, .sysreturn] → t.sp = s.sp) ∧
    (i ≠ .sysreturn → t.ir = s.ir)

/-- R18 to R23, R88: no instruction but SYSCALL and SYSRETURN changes the mode or IE; USP is written by SYSCALL only,
KSP by SYSRETURN only; no instruction writes the counter or the timer period; only PUT adds to the output. -/
def Obligations.ControlStateChangesOnlyByEntryAndReturn : Prop :=
  ∀ (i : Instr) (s t : State), exec i s = .next t →
    (i ∉ [.syscall, .sysreturn] → t.mode = s.mode ∧ t.ie = s.ie) ∧
    (i ≠ .syscall → t.usp = s.usp) ∧ (i ≠ .sysreturn → t.ksp = s.ksp) ∧
    t.counter = s.counter ∧ t.timerValue = s.timerValue ∧
    (i ≠ .put → t.output = s.output) ∧ (i ≠ .get → t.drawIndex = s.drawIndex)

/-- R163: the transactions of an instruction after its opcode fetch are an initial piece of its row of the table,
and all of it when the machine runs on. The rows of SYSCALL and SYSRETURN rest on the frame layout D3, log entry 13. -/
def Obligations.TransactionsFollowTheTable : Prop :=
  ∀ (i : Instr) (s t : State), s.run = .running → exec i s = .next t →
    (∃ n, t.bus = s.bus ++ (instrTransactions i s).take n) ∧
    (t.run = .running → t.bus = s.bus ++ instrTransactions i s)

/-! ### Pairs of instructions -/

/-- R26, R27, R115, R116: PUSH then POP gives AC back, whatever AC became in between, SP where it was. -/
def Obligations.PopUndoesPush : Prop :=
  ∀ (s : State) (a : Word), Memory.wf s.mem = true → check (s.sp - 1#32) s.mode = .ok →
    ∃ t u, exec .push s = .next t ∧ exec .pop { t with ac := a } = .next u ∧
      u.ac = s.ac ∧ u.sp = s.sp ∧ u.mem = t.mem

/-- R113, R114: RETURN after JUMP_RETURN goes to the cell after the operand of the call, SP where it was, whatever
the subroutine left in PC, IR, AC, X and Y. -/
def Obligations.ReturnUndoesJumpReturn : Prop :=
  ∀ (s : State) (pc ir ac x y : Word), Memory.wf s.mem = true → check (s.sp - 1#32) s.mode = .ok →
    check s.pc s.mode = .ok →
    ∃ t u, exec .jumpReturn s = .next t ∧
      exec .ret { t with pc := pc, ir := ir, ac := ac, x := x, y := y } = .next u ∧
      u.pc = s.pc + 1#32 ∧ u.sp = s.sp ∧ u.mode = s.mode

/-- R136, R139: SYSRETURN with the handler's SP where the entry left it restores the interrupted program whole: PC, IR,
AC, X, Y, SP, the mode, IE and KSP are as before the SYSCALL, whatever the handler left in PC, IR, AC, X and Y. That
the entry completes on frame cells checked as Kernel is decision D4, log entry 12. The record of requests (`seen`) is
left open here. -/
def Obligations.SysreturnResumesAfterSyscall : Prop :=
  ∀ (s : State) (pc ir ac x y : Word), Memory.wf s.mem = true → s.mode = .user → s.ie = true →
    frameFits s.ksp = true →
    ∃ t seen, exec .syscall s = .next t ∧
      exec .sysreturn { t with pc := pc, ir := ir, ac := ac, x := x, y := y } =
        .next { s with usp := s.sp, mem := t.mem, bus := seen }

/-- R51: what STORE put into the cell that is executed next is what the next fetch reads. -/
def Obligations.NextFetchSeesTheStoredOpcode : Prop :=
  ∀ s t : State, Memory.wf s.mem = true → s.run = .running → exec .store s = .next t → t.run = .running →
    t.pc = s.cell s.pc → ∃ u, fetch t = .done () u ∧ u.ir = s.ac

/-! ### Timer -/

/-- R140, R136, R141 (b): a tick in `(User, IE)` with room for the frame is taken at once, with the state the
instruction left in the frame and the counter already incremented; so a tick on a handler's SYSRETURN is taken after
the return, with the just restored PC in the frame, and the frame fits where the popped one lay. The layout of both
frames (R28, R29) is decision D3, log entry 13; that the frame is checked as Kernel is decision D4, log entry 12. -/
def Obligations.TimerTickInUserModeIsTaken : Prop :=
  (∀ u : State, u.run = .running → u.mode = .user → u.ie = true → frameFits u.ksp = true →
    (u.counter + 1) % u.timerValue = 0 →
    afterExecute u = { u with counter := u.counter + 1 }.interrupted 1000#32) ∧
  (∀ s : State, s.run = .running → s.mode = .kernel → frameReadable s.sp .kernel = true →
    (s.counter + 1) % s.timerValue = 0 →
    exec .sysreturn s = .next s.returned ∧
    afterExecute s.returned = { s.returned with counter := s.counter + 1 }.interrupted 1000#32)

/-- R158: every tick that falls in Kernel mode is dropped without trace, and so is the one reached by a taken SYSCALL
itself. -/
def Obligations.TimerTicksInKernelModeAreLost : Prop :=
  (∀ u : State, u.run = .running → u.mode = .kernel → afterExecute u = { u with counter := u.counter + 1 }) ∧
  (∀ s u : State, s.mode = .user → s.ie = true → exec .syscall s = .next u → u.run = .running →
    afterExecute u = { u with counter := u.counter + 1 })

/-! ### The whole machine -/

/-- R25, R23, and the canonical form of the cells (log entry 2): every step keeps them. -/
def Obligations.StepKeepsTheMachineLegal : Prop :=
  ∀ s t : State, s.legal = true → step s = .next t → t.legal = true

/-- R25, R30: every legal launch meets the invariant, and so does the model's reset state (whose open values are
log entries 3, 4, 6 and 7). -/
def Obligations.LaunchIsLegal : Prop :=
  (∀ l : Launch, Memory.wf l.image = true → 0 < l.timerValue → (State.launch l).legal = true) ∧
  State.reset.legal = true

/-- R48, R50: what a step does to the cells is what the WRITE requests it sent, in order, make of them; and it sends
only READ and WRITE, only to addresses that exist. -/
def Obligations.CellsChangeOnlyByTheRequestsSent : Prop :=
  ∀ s t : State, step s = .next t →
    ∃ sent, t.bus = s.bus ++ sent ∧ t.mem = applyWrites sent s.mem ∧
      ∀ q ∈ sent, ∃ a v : Word, 0 ≤ a.toInt ∧ a.toInt < 2000 ∧ (q = .read a ∨ q = .write a v)

/-- R156, R143: a handler learns nothing of user memory: two Kernel-mode states that differ only in cells below 1000
step to states that differ only there, or stop alike. For GET this rests on a choice of the model (DESIGN CHOICE, log
entry 8): two runs take the same draw at the same `drawIndex`. -/
def Obligations.HandlerLearnsNothingOfUserMemory : Prop :=
  ∀ s t : State, Memory.wf s.mem = true → Memory.wf t.mem = true → s.mode = .kernel → s.agreeAboveUser t →
    (∃ s' t', step s = .next s' ∧ step t = .next t' ∧ s'.agreeAboveUser t') ∨
    (∃ f, step s = .fault f ∧ step t = .fault f) ∨ (∃ r, step s = .refused r ∧ step t = .refused r)

/-- R156, R143: a step from Kernel mode changes no cell below 1000. -/
def Obligations.HandlerChangesNoUserCell : Prop :=
  ∀ s t : State, s.mode = .kernel → step s = .next t →
    ∀ k, k < 1000 → Memory.read t.mem k = Memory.read s.mem k

/-- R143, R136: a step from User mode changes a cell at 1000 or above only as a frame cell of an interrupt taken
with interrupts enabled, on the kernel stack KSP named before the step; it then ends in Kernel mode. -/
def Obligations.UserStepChangesKernelCellsOnlyInTheFrame : Prop :=
  ∀ (s t : State) (k : Nat), s.mode = .user → step s = .next t → 1000 ≤ k →
    Memory.read t.mem k ≠ Memory.read s.mem k →
    s.ie = true ∧ t.mode = .kernel ∧ ∃ d ∈ [1#32, 2#32, 3#32, 4#32, 5#32], k = (s.ksp - d).toNat

/-- R18, R143, R135, R136: Kernel mode is entered only by a taken interrupt: IE is then false, and if the machine runs
on, control is at 1500 after a SYSCALL or at 1000 on a multiple of the timer period, the frame below the unchanged
KSP (opcode 29 is D2, log entry 17). -/
def Obligations.KernelModeIsEnteredOnlyAtAHandler : Prop :=
  ∀ s t : State, s.mode = .user → step s = .next t → t.mode = .kernel →
    t.ie = false ∧
    (t.run = .running → t.ksp = s.ksp ∧ t.sp = s.ksp - 5#32 ∧
      ((t.pc = 1500#32 ∧ s.cell s.pc = 29#32) ∨ (t.pc = 1000#32 ∧ t.counter % t.timerValue = 0)))

/-- R18, R143, R139: Kernel mode is left only by SYSRETURN (opcode 30 is D2, log entry 17), which re-enables
interrupts, loads the user SP and saves the kernel SP after the pop. -/
def Obligations.KernelModeIsLeftOnlyBySysreturn : Prop :=
  ∀ s t : State, s.mode = .kernel → step s = .next t → t.mode = .user →
    s.cell s.pc = 30#32 ∧ t.ie = true ∧ t.sp = s.usp ∧ t.ksp = s.sp + 5#32

/-- R88, R8: a step leaves the output stream alone, or it ran PUT (opcode 9) and added one event at the end: the port
its operand names, with AC. Nothing emitted is ever retracted. -/
def Obligations.OutputGrowsOnlyByPut : Prop :=
  ∀ s t : State, step s = .next t →
    t.output = s.output ∨
    (s.cell s.pc = 9#32 ∧ ∃ p : Port, s.cell (s.pc + 1#32) = p.number ∧ t.output = s.output ++ [⟨p, s.ac⟩])

/-! ### The program text -/

/-- R66, with R62: a program text that loads writes no negative cell, and leaves the cells canonical (log entry 2). A
value above the largest `Int_W` aborts the load, which is a choice of the model (DESIGN CHOICE, log entry 24). -/
def Obligations.ProgramTextWritesNoNegativeCell : Prop :=
  ∀ (start : Nat) (m n : Memory) (lines : List (List Char)), Memory.wf m = true → loadLines start m lines = some n →
    Memory.wf n = true ∧ ∀ k, Memory.read n k = Memory.read m k ∨ 0 ≤ (Memory.read n k).toInt
end

