-- ==== Sys2Proof/Laws/Decode.lean ====
section
/-! SUPPORT. What the opcode decoder answers, once: the spec lemmas of `decodeOpcode`. -/

namespace Sys2Proof

theorem lookupOpcode_mem {w : Word} {i : Instr} {rows : List (Word × Instr)} (h : lookupOpcode w rows = some i) :
    (w, i) ∈ rows := by
  induction rows with
  | nil => cases h
  | cons row rows ih =>
    obtain ⟨n, j⟩ := row
    simp only [lookupOpcode] at h
    by_cases hw : w = n
    · rw [if_pos hw] at h
      cases h
      simp [hw]
    · rw [if_neg hw] at h
      exact List.mem_cons_of_mem _ (ih h)

/-- Every row of the map holds the number the encoder gives its instruction (30_encoding.md R63). -/
theorem opcodeTable_rows : ∀ row ∈ opcodeTable, row.1 = encodeOpcode row.2 := by decide

@[simp] theorem decodeOpcode_encodeOpcode (i : Instr) : decodeOpcode (encodeOpcode i) = .ok i := by cases i <;> rfl

/-- The cells that decode to an instruction are the one cell the encoder writes (30_encoding.md R61). -/
theorem decodeOpcode_ok_iff {w : Word} {i : Instr} : decodeOpcode w = .ok i ↔ w = encodeOpcode i := by
  constructor
  · intro h
    unfold decodeOpcode at h
    split at h
    · rename_i j hj
      cases h
      exact opcodeTable_rows _ (lookupOpcode_mem hj)
    · cases h
  · rintro rfl
    exact decodeOpcode_encodeOpcode i

/-- A cell that is rejected is rejected by its own value (30_encoding.md R64). -/
theorem decodeOpcode_error {w : Word} {why : DecodeReject} (h : decodeOpcode w = .error why) :
    why = .illegalOpcode w := by
  unfold decodeOpcode at h
  split at h <;> cases h
  rfl

end Sys2Proof
end

