-- ==== Sys2Proof/Laws/State.lean ====
section
/-! SUPPORT. One lemma per field per named update of the state, true by `rfl`, for the simp set. -/

namespace Sys2Proof.Machine

/-! ### `raiseFatal` -/

@[simp] theorem raiseFatal_pc (code : ExitCode) (s : State) : (raiseFatal code s).pc = s.pc := rfl

@[simp] theorem raiseFatal_ir (code : ExitCode) (s : State) : (raiseFatal code s).ir = s.ir := rfl

@[simp] theorem raiseFatal_ac (code : ExitCode) (s : State) : (raiseFatal code s).ac = s.ac := rfl

@[simp] theorem raiseFatal_x (code : ExitCode) (s : State) : (raiseFatal code s).x = s.x := rfl

@[simp] theorem raiseFatal_y (code : ExitCode) (s : State) : (raiseFatal code s).y = s.y := rfl

@[simp] theorem raiseFatal_sp (code : ExitCode) (s : State) : (raiseFatal code s).sp = s.sp := rfl

@[simp] theorem raiseFatal_mode (code : ExitCode) (s : State) : (raiseFatal code s).mode = s.mode := rfl

@[simp] theorem raiseFatal_ie (code : ExitCode) (s : State) : (raiseFatal code s).ie = s.ie := rfl

@[simp] theorem raiseFatal_usp (code : ExitCode) (s : State) : (raiseFatal code s).usp = s.usp := rfl

@[simp] theorem raiseFatal_ksp (code : ExitCode) (s : State) : (raiseFatal code s).ksp = s.ksp := rfl

@[simp] theorem raiseFatal_counter (code : ExitCode) (s : State) : (raiseFatal code s).counter = s.counter := rfl

@[simp] theorem raiseFatal_timerValue (code : ExitCode) (s : State) : (raiseFatal code s).timerValue = s.timerValue := rfl

@[simp] theorem raiseFatal_run (code : ExitCode) (s : State) : (raiseFatal code s).run = .halted code := rfl

@[simp] theorem raiseFatal_mem (code : ExitCode) (s : State) : (raiseFatal code s).mem = s.mem := rfl

@[simp] theorem raiseFatal_output (code : ExitCode) (s : State) : (raiseFatal code s).output = s.output := rfl

@[simp] theorem raiseFatal_bus (code : ExitCode) (s : State) : (raiseFatal code s).bus = s.bus := rfl

@[simp] theorem raiseFatal_drawIndex (code : ExitCode) (s : State) : (raiseFatal code s).drawIndex = s.drawIndex := rfl

/-! ### `enterKernel` -/

@[simp] theorem enterKernel_pc (s : State) : (enterKernel s).pc = s.pc := rfl

@[simp] theorem enterKernel_ir (s : State) : (enterKernel s).ir = s.ir := rfl

@[simp] theorem enterKernel_ac (s : State) : (enterKernel s).ac = s.ac := rfl

@[simp] theorem enterKernel_x (s : State) : (enterKernel s).x = s.x := rfl

@[simp] theorem enterKernel_y (s : State) : (enterKernel s).y = s.y := rfl

@[simp] theorem enterKernel_sp (s : State) : (enterKernel s).sp = s.ksp := rfl

@[simp] theorem enterKernel_mode (s : State) : (enterKernel s).mode = .kernel := rfl

@[simp] theorem enterKernel_ie (s : State) : (enterKernel s).ie = false := rfl

@[simp] theorem enterKernel_usp (s : State) : (enterKernel s).usp = s.sp := rfl

@[simp] theorem enterKernel_ksp (s : State) : (enterKernel s).ksp = s.ksp := rfl

@[simp] theorem enterKernel_counter (s : State) : (enterKernel s).counter = s.counter := rfl

@[simp] theorem enterKernel_timerValue (s : State) : (enterKernel s).timerValue = s.timerValue := rfl

@[simp] theorem enterKernel_run (s : State) : (enterKernel s).run = s.run := rfl

@[simp] theorem enterKernel_mem (s : State) : (enterKernel s).mem = s.mem := rfl

@[simp] theorem enterKernel_output (s : State) : (enterKernel s).output = s.output := rfl

@[simp] theorem enterKernel_bus (s : State) : (enterKernel s).bus = s.bus := rfl

@[simp] theorem enterKernel_drawIndex (s : State) : (enterKernel s).drawIndex = s.drawIndex := rfl

/-! ### `State.afterRequest` -/

@[simp] theorem State.afterRequest_pc (q : Request) (s : State) : (s.afterRequest q).pc = s.pc := rfl

@[simp] theorem State.afterRequest_ir (q : Request) (s : State) : (s.afterRequest q).ir = s.ir := rfl

@[simp] theorem State.afterRequest_ac (q : Request) (s : State) : (s.afterRequest q).ac = s.ac := rfl

@[simp] theorem State.afterRequest_x (q : Request) (s : State) : (s.afterRequest q).x = s.x := rfl

@[simp] theorem State.afterRequest_y (q : Request) (s : State) : (s.afterRequest q).y = s.y := rfl

@[simp] theorem State.afterRequest_sp (q : Request) (s : State) : (s.afterRequest q).sp = s.sp := rfl

@[simp] theorem State.afterRequest_mode (q : Request) (s : State) : (s.afterRequest q).mode = s.mode := rfl

@[simp] theorem State.afterRequest_ie (q : Request) (s : State) : (s.afterRequest q).ie = s.ie := rfl

@[simp] theorem State.afterRequest_usp (q : Request) (s : State) : (s.afterRequest q).usp = s.usp := rfl

@[simp] theorem State.afterRequest_ksp (q : Request) (s : State) : (s.afterRequest q).ksp = s.ksp := rfl

@[simp] theorem State.afterRequest_counter (q : Request) (s : State) : (s.afterRequest q).counter = s.counter := rfl

@[simp] theorem State.afterRequest_timerValue (q : Request) (s : State) : (s.afterRequest q).timerValue = s.timerValue := rfl

@[simp] theorem State.afterRequest_run (q : Request) (s : State) : (s.afterRequest q).run = s.run := rfl

@[simp] theorem State.afterRequest_mem (q : Request) (s : State) : (s.afterRequest q).mem = (serve s.mem q).2 := rfl

@[simp] theorem State.afterRequest_output (q : Request) (s : State) : (s.afterRequest q).output = s.output := rfl

@[simp] theorem State.afterRequest_bus (q : Request) (s : State) : (s.afterRequest q).bus = s.bus ++ [q] := rfl

@[simp] theorem State.afterRequest_drawIndex (q : Request) (s : State) : (s.afterRequest q).drawIndex = s.drawIndex := rfl

/-! ### `emit` -/

@[simp] theorem emit_pc (p : Port) (v : Word) (s : State) : (emit p v s).pc = s.pc := rfl

@[simp] theorem emit_ir (p : Port) (v : Word) (s : State) : (emit p v s).ir = s.ir := rfl

@[simp] theorem emit_ac (p : Port) (v : Word) (s : State) : (emit p v s).ac = s.ac := rfl

@[simp] theorem emit_x (p : Port) (v : Word) (s : State) : (emit p v s).x = s.x := rfl

@[simp] theorem emit_y (p : Port) (v : Word) (s : State) : (emit p v s).y = s.y := rfl

@[simp] theorem emit_sp (p : Port) (v : Word) (s : State) : (emit p v s).sp = s.sp := rfl

@[simp] theorem emit_mode (p : Port) (v : Word) (s : State) : (emit p v s).mode = s.mode := rfl

@[simp] theorem emit_ie (p : Port) (v : Word) (s : State) : (emit p v s).ie = s.ie := rfl

@[simp] theorem emit_usp (p : Port) (v : Word) (s : State) : (emit p v s).usp = s.usp := rfl

@[simp] theorem emit_ksp (p : Port) (v : Word) (s : State) : (emit p v s).ksp = s.ksp := rfl

@[simp] theorem emit_counter (p : Port) (v : Word) (s : State) : (emit p v s).counter = s.counter := rfl

@[simp] theorem emit_timerValue (p : Port) (v : Word) (s : State) : (emit p v s).timerValue = s.timerValue := rfl

@[simp] theorem emit_run (p : Port) (v : Word) (s : State) : (emit p v s).run = s.run := rfl

@[simp] theorem emit_mem (p : Port) (v : Word) (s : State) : (emit p v s).mem = s.mem := rfl

@[simp] theorem emit_output (p : Port) (v : Word) (s : State) : (emit p v s).output = s.output ++ [⟨p, v⟩] := rfl

@[simp] theorem emit_bus (p : Port) (v : Word) (s : State) : (emit p v s).bus = s.bus := rfl

@[simp] theorem emit_drawIndex (p : Port) (v : Word) (s : State) : (emit p v s).drawIndex = s.drawIndex := rfl

/-! ### `State.record` -/

@[simp] theorem State.record_pc (qs : List Request) (s : State) : (s.record qs).pc = s.pc := rfl

@[simp] theorem State.record_ir (qs : List Request) (s : State) : (s.record qs).ir = s.ir := rfl

@[simp] theorem State.record_ac (qs : List Request) (s : State) : (s.record qs).ac = s.ac := rfl

@[simp] theorem State.record_x (qs : List Request) (s : State) : (s.record qs).x = s.x := rfl

@[simp] theorem State.record_y (qs : List Request) (s : State) : (s.record qs).y = s.y := rfl

@[simp] theorem State.record_sp (qs : List Request) (s : State) : (s.record qs).sp = s.sp := rfl

@[simp] theorem State.record_mode (qs : List Request) (s : State) : (s.record qs).mode = s.mode := rfl

@[simp] theorem State.record_ie (qs : List Request) (s : State) : (s.record qs).ie = s.ie := rfl

@[simp] theorem State.record_usp (qs : List Request) (s : State) : (s.record qs).usp = s.usp := rfl

@[simp] theorem State.record_ksp (qs : List Request) (s : State) : (s.record qs).ksp = s.ksp := rfl

@[simp] theorem State.record_counter (qs : List Request) (s : State) : (s.record qs).counter = s.counter := rfl

@[simp] theorem State.record_timerValue (qs : List Request) (s : State) : (s.record qs).timerValue = s.timerValue := rfl

@[simp] theorem State.record_run (qs : List Request) (s : State) : (s.record qs).run = s.run := rfl

@[simp] theorem State.record_mem (qs : List Request) (s : State) : (s.record qs).mem = s.mem := rfl

@[simp] theorem State.record_output (qs : List Request) (s : State) : (s.record qs).output = s.output := rfl

@[simp] theorem State.record_bus (qs : List Request) (s : State) : (s.record qs).bus = s.bus ++ qs := rfl

@[simp] theorem State.record_drawIndex (qs : List Request) (s : State) : (s.record qs).drawIndex = s.drawIndex := rfl

/-! ### `State.withFetchWord` -/

@[simp] theorem State.withFetchWord_pc (nbits w : Nat) (s : State) : (s.withFetchWord nbits w).pc = s.pc := rfl

@[simp] theorem State.withFetchWord_ir (nbits w : Nat) (s : State) : (s.withFetchWord nbits w).ir = s.ir := rfl

@[simp] theorem State.withFetchWord_ac (nbits w : Nat) (s : State) : (s.withFetchWord nbits w).ac = s.ac := rfl

@[simp] theorem State.withFetchWord_x (nbits w : Nat) (s : State) : (s.withFetchWord nbits w).x = s.x := rfl

@[simp] theorem State.withFetchWord_y (nbits w : Nat) (s : State) : (s.withFetchWord nbits w).y = s.y := rfl

@[simp] theorem State.withFetchWord_sp (nbits w : Nat) (s : State) : (s.withFetchWord nbits w).sp = s.sp := rfl

@[simp] theorem State.withFetchWord_mode (nbits w : Nat) (s : State) : (s.withFetchWord nbits w).mode = s.mode := rfl

@[simp] theorem State.withFetchWord_ie (nbits w : Nat) (s : State) : (s.withFetchWord nbits w).ie = s.ie := rfl

@[simp] theorem State.withFetchWord_usp (nbits w : Nat) (s : State) : (s.withFetchWord nbits w).usp = s.usp := rfl

@[simp] theorem State.withFetchWord_ksp (nbits w : Nat) (s : State) : (s.withFetchWord nbits w).ksp = s.ksp := rfl

@[simp] theorem State.withFetchWord_counter (nbits w : Nat) (s : State) : (s.withFetchWord nbits w).counter = s.counter := rfl

@[simp] theorem State.withFetchWord_timerValue (nbits w : Nat) (s : State) : (s.withFetchWord nbits w).timerValue = s.timerValue := rfl

@[simp] theorem State.withFetchWord_run (nbits w : Nat) (s : State) : (s.withFetchWord nbits w).run = s.run := rfl

@[simp] theorem State.withFetchWord_mem (nbits w : Nat) (s : State) : (s.withFetchWord nbits w).mem = placeInstr s.pc nbits w s.mem := rfl

@[simp] theorem State.withFetchWord_output (nbits w : Nat) (s : State) : (s.withFetchWord nbits w).output = s.output := rfl

@[simp] theorem State.withFetchWord_bus (nbits w : Nat) (s : State) : (s.withFetchWord nbits w).bus = s.bus := rfl

@[simp] theorem State.withFetchWord_drawIndex (nbits w : Nat) (s : State) : (s.withFetchWord nbits w).drawIndex = s.drawIndex := rfl

end Sys2Proof.Machine
end

