-- ==== Sys2Proof/Laws/Memory.lean ====
section
/-! SUPPORT. The laws of the Memory Store: read after write, the frame of a write, and that every operation on
the cells keeps their canonical form. -/

namespace Sys2Proof.Machine

theorem Memory.wfFrom_cons {lo a : Nat} {v : Word} {rest : Memory} :
    Memory.wfFrom lo ((a, v) :: rest) = true ↔
      lo ≤ a ∧ a < Config.memSize ∧ v ≠ Config.unlistedCell ∧ Memory.wfFrom (a + 1) rest = true := by
  simp [Memory.wfFrom, and_assoc]

/-- A canonical list may be read as canonical from any lower address on. -/
theorem Memory.wfFrom_mono {lo lo' : Nat} {m : Memory} (hle : lo' ≤ lo) (h : Memory.wfFrom lo m = true) :
    Memory.wfFrom lo' m = true := by
  cases m with
  | nil => rfl
  | cons c rest =>
    obtain ⟨a, v⟩ := c
    rw [Memory.wfFrom_cons] at h ⊢
    exact ⟨hle.trans h.1, h.2⟩

/-- An address below a canonical list is unlisted. -/
theorem Memory.read_below {lo k : Nat} {m : Memory} (h : Memory.wfFrom lo m = true) (hk : k < lo) :
    Memory.read m k = Config.unlistedCell := by
  induction m generalizing lo with
  | nil => rfl
  | cons c rest ih =>
    obtain ⟨a, v⟩ := c
    rw [Memory.wfFrom_cons] at h
    simp only [Memory.read]
    rw [if_neg (by omega)]
    exact ih h.2.2.2 (by omega)

/-- A write leaves every other address alone, in every list. -/
@[simp] theorem Memory.read_write_ne {m : Memory} {k j : Nat} {v : Word} (h : j ≠ k) :
    Memory.read (Memory.write m k v) j = Memory.read m j := by
  induction m with
  | nil => by_cases hv : v = Config.unlistedCell <;> simp [Memory.write, Memory.read, hv, h.symm]
  | cons c rest ih =>
    obtain ⟨a, w⟩ := c
    by_cases hka : k < a
    · by_cases hv : v = Config.unlistedCell <;> simp [Memory.write, Memory.read, hka, hv, h.symm]
    · by_cases hk : k = a
      · subst hk
        by_cases hv : v = Config.unlistedCell <;> simp [Memory.write, Memory.read, hv, h.symm]
      · simp [Memory.write, Memory.read, hka, hk, ih]

theorem Memory.read_write_eq_from {lo k : Nat} {m : Memory} {v : Word} (h : Memory.wfFrom lo m = true) :
    Memory.read (Memory.write m k v) k = v := by
  induction m generalizing lo with
  | nil => by_cases hv : v = Config.unlistedCell <;> simp [Memory.write, Memory.read, hv]
  | cons c rest ih =>
    obtain ⟨a, w⟩ := c
    have h' := Memory.wfFrom_cons.1 h
    by_cases hka : k < a
    · by_cases hv : v = Config.unlistedCell
      · simp only [Memory.write, hka, hv, if_true]
        exact Memory.read_below (Memory.wfFrom_cons.2 ⟨Nat.le_refl a, h'.2⟩) hka
      · simp [Memory.write, Memory.read, hka, hv]
    · by_cases hk : k = a
      · subst hk
        by_cases hv : v = Config.unlistedCell
        · simp only [Memory.write, Nat.lt_irrefl, hv, if_true, if_false]
          exact Memory.read_below h'.2.2.2 (Nat.lt_succ_self k)
        · simp [Memory.write, Memory.read, hv]
      · simp only [Memory.write, Memory.read, hka, hk, if_false]
        rw [if_neg (Ne.symm hk)]
        exact ih h'.2.2.2

/-- A read after a write to the same address gives the value written (20_memory.md R50). -/
theorem Memory.read_write_eq {m : Memory} {k : Nat} {v : Word} (h : Memory.wf m = true) :
    Memory.read (Memory.write m k v) k = v := Memory.read_write_eq_from h

/-- Everything a read after a write can give (20_memory.md R50). -/
theorem Memory.read_write {m : Memory} (h : Memory.wf m = true) (k j : Nat) (v : Word) :
    Memory.read (Memory.write m k v) j = if j = k then v else Memory.read m j := by
  by_cases hj : j = k
  · subst hj
    simp [Memory.read_write_eq h]
  · simp [hj]

theorem Memory.wfFrom_write {lo k : Nat} {m : Memory} {v : Word} (h : Memory.wfFrom lo m = true) (hlo : lo ≤ k)
    (hk : k < Config.memSize) : Memory.wfFrom lo (Memory.write m k v) = true := by
  induction m generalizing lo with
  | nil =>
    by_cases hv : v = Config.unlistedCell
    · simp [Memory.write, Memory.wfFrom, hv]
    · simp [Memory.write, Memory.wfFrom, hv, hlo, hk]
  | cons c rest ih =>
    obtain ⟨a, w⟩ := c
    have h' := Memory.wfFrom_cons.1 h
    by_cases hka : k < a
    · by_cases hv : v = Config.unlistedCell
      · simpa [Memory.write, hka, hv] using h
      · simp only [Memory.write, hka, hv, if_true, if_false]
        exact Memory.wfFrom_cons.2 ⟨hlo, hk, hv, Memory.wfFrom_cons.2 ⟨hka, h'.2⟩⟩
    · by_cases hka' : k = a
      · subst hka'
        by_cases hv : v = Config.unlistedCell
        · simp only [Memory.write, Nat.lt_irrefl, hv, if_true, if_false]
          exact Memory.wfFrom_mono (by omega) h'.2.2.2
        · simp only [Memory.write, Nat.lt_irrefl, hv, if_true, if_false]
          exact Memory.wfFrom_cons.2 ⟨hlo, hk, hv, h'.2.2.2⟩
      · simp only [Memory.write, hka, hka', if_false]
        exact Memory.wfFrom_cons.2 ⟨h'.1, h'.2.1, h'.2.2.1, ih h'.2.2.2 (by omega)⟩

/-- A write inside the address space keeps the canonical form. -/
theorem Memory.wf_write {m : Memory} {k : Nat} {v : Word} (h : Memory.wf m = true) (hk : k < Config.memSize) :
    Memory.wf (Memory.write m k v) = true := Memory.wfFrom_write h (Nat.zero_le k) hk

/-- The Memory Store's bounds check, in numbers (20_memory.md R47). -/
theorem inBounds_iff {a : Word} : inBounds a = true ↔ 0 ≤ a.toInt ∧ a.toInt < 2000 := by
  unfold inBounds
  rw [Bool.and_eq_true, decide_eq_true_eq, decide_eq_true_eq]
  rfl

/-- An address the Memory Store accepts is a cell number below 2000 (20_memory.md R47). -/
theorem inBounds_lt {a : Word} (h : inBounds a = true) : a.toNat < Config.memSize := by
  have h := inBounds_iff.1 h
  simp only [Config.memSize]
  have hc := BitVec.toInt_eq_toNat_cond a
  split at hc <;> omega

/-- Serving a request keeps the canonical form (20_memory.md R47). -/
theorem serve_wf {m : Memory} (q : Request) (h : Memory.wf m = true) : Memory.wf (serve m q).2 = true := by
  cases q with
  | read a => by_cases ha : inBounds a = true <;> simpa [serve, ha] using h
  | write a v =>
    by_cases ha : inBounds a = true
    · simpa [serve, ha] using Memory.wf_write h (inBounds_lt ha)
    · simpa [serve, ha] using h
  | otherKind => exact h

/-- Placing an instruction keeps the canonical form. -/
theorem placeCell_wf {a v : Word} {m : Memory} (h : Memory.wf m = true) : Memory.wf (placeCell a v m) = true := by
  by_cases ha : inBounds a = true
  · simpa [placeCell, ha] using Memory.wf_write h (inBounds_lt ha)
  · simpa [placeCell, ha] using h

theorem placeInstr_wf {a : Word} {nbits w : Nat} {m : Memory} (h : Memory.wf m = true) :
    Memory.wf (placeInstr a nbits w m) = true := placeCell_wf (placeCell_wf h)

end Sys2Proof.Machine
end

