-- ==== Sys2Proof/Laws/Loader.lean ====
section
/-! SUPPORT. What the loader does with one line, once for each meaning a line can have (30_encoding.md R66). -/

namespace Sys2Proof.Machine

@[simp] theorem loadLines_nil (cursor : Nat) (m : Memory) : loadLines cursor m [] = some m := rfl

theorem loadLines_blank {line : List Char} (h : lineMeaning line = .blank) (cursor : Nat) (m : Memory)
    (rest : List (List Char)) : loadLines cursor m (line :: rest) = loadLines cursor m rest := by
  simp only [loadLines, h]

theorem loadLines_comment {line : List Char} (h : lineMeaning line = .comment) (cursor : Nat) (m : Memory)
    (rest : List (List Char)) : loadLines cursor m (line :: rest) = loadLines cursor m rest := by
  simp only [loadLines, h]

theorem loadLines_setCursor {line : List Char} {a : Nat} (h : lineMeaning line = .setCursor a) (cursor : Nat)
    (m : Memory) (rest : List (List Char)) : loadLines cursor m (line :: rest) = loadLines a m rest := by
  simp only [loadLines, h]

theorem loadLines_malformed {line : List Char} (h : lineMeaning line = .malformed) (cursor : Nat) (m : Memory)
    (rest : List (List Char)) : loadLines cursor m (line :: rest) = none := by
  simp only [loadLines, h]

/-- A value is loaded only at a cell that exists and only if it is an `Int_W`; else the load aborts. -/
theorem loadLines_loadValue {line : List Char} {v : Nat} (h : lineMeaning line = .loadValue v) (cursor : Nat)
    (m : Memory) (rest : List (List Char)) :
    loadLines cursor m (line :: rest) =
      if cursor < Config.memSize ∧ v ≤ maxLoadValue then
        loadLines (cursor + 1) (Memory.write m cursor (BitVec.ofNat 32 v)) rest
      else none := by
  simp only [loadLines, h]

/-- The cell that a value of a line becomes is not negative (30_encoding.md R62, R66). -/
theorem toInt_of_loadValue {v : Nat} (h : v ≤ maxLoadValue) : (BitVec.ofNat 32 v).toInt = v := by
  unfold maxLoadValue at h
  rw [BitVec.toInt_eq_toNat_cond, BitVec.toNat_ofNat]
  split <;> omega

end Sys2Proof.Machine
end

