-- ==== Sys2Proof/Laws/Ops.lean ====
section
/-! SUPPORT. For each shared operation, once, everything it can do. Later proofs cite these lemmas and do not
unfold the operation. -/

namespace Sys2Proof.Machine

@[simp] theorem Res.andThen_done {α β : Type} (v : α) (s : State) (f : α → State → Res β) :
    (Res.done v s).andThen f = f v s := rfl

@[simp] theorem Res.andThen_raised {α β : Type} (s : State) (f : α → State → Res β) :
    (Res.raised s : Res α).andThen f = .raised s := rfl

@[simp] theorem Res.state_done {α : Type} (v : α) (s : State) : (Res.done v s).state = s := rfl

@[simp] theorem Res.state_raised {α : Type} (s : State) : (Res.raised s : Res α).state = s := rfl

@[simp] theorem settle_done (v : Unit) (s : State) : settle (.done v s) = .next s := rfl

@[simp] theorem settle_raised (s : State) : settle (.raised s) = .next s := rfl

@[simp] theorem Verdict.code_ok : Verdict.ok.code = none := rfl

/-- Only `Ok` has no exit code (60_exceptions.md R132). -/
theorem Verdict.code_eq_none {v : Verdict} : v.code = none ↔ v = .ok := by cases v <;> simp [Verdict.code]

/-- `Check` in numbers (20_memory.md R43). -/
theorem check_eq (a : Word) (m : Mode) :
    check a m =
      if a.toInt < 0 ∨ 2000 ≤ a.toInt then .outOfBounds
      else if 1000 ≤ a.toInt ∧ m = .user then .kernelDenied
      else if a.toInt < 1000 ∧ m = .kernel then .userDenied
      else .ok := rfl

/-- An access that `Check` lets pass is inside the Memory Store's bounds (20_memory.md R43, R47). -/
theorem check_ok_inBounds {a : Word} {m : Mode} (h : check a m = .ok) : inBounds a = true := by
  rw [check_eq] at h
  rw [inBounds_iff]
  split at h
  · cases h
  · omega

/-- Everything `MemRead` can do (R44): a failure status does not occur. -/
theorem memRead_eq (a : Word) (s : State) :
    memRead a s =
      match (check a s.mode).code with
      | some code => .raised (raiseFatal code s)
      | none => .done (s.cell a) (s.record [.read a]) := by
  unfold memRead access
  cases h : (check a s.mode).code with
  | some code => rfl
  | none =>
    have hb := check_ok_inBounds (Verdict.code_eq_none.1 h)
    simp [serve, hb, Status.code, State.afterRequest, State.record, State.cell]

/-- Everything `MemWrite` can do (R45). -/
theorem memWrite_eq (a v : Word) (s : State) :
    memWrite a v s =
      match (check a s.mode).code with
      | some code => .raised (raiseFatal code s)
      | none => .done () { s with mem := Memory.write s.mem a.toNat v, bus := s.bus ++ [.write a v] } := by
  unfold memWrite access
  cases h : (check a s.mode).code with
  | some code => rfl
  | none =>
    have hb := check_ok_inBounds (Verdict.code_eq_none.1 h)
    simp [serve, hb, Status.code, State.afterRequest]

theorem memRead_ok {a : Word} {s : State} (h : check a s.mode = .ok) :
    memRead a s = .done (s.cell a) (s.record [.read a]) := by simp [memRead_eq, h]

theorem memWrite_ok {a v : Word} {s : State} (h : check a s.mode = .ok) :
    memWrite a v s = .done () { s with mem := Memory.write s.mem a.toNat v, bus := s.bus ++ [.write a v] } := by
  simp [memWrite_eq, h]

theorem memRead_refused {a : Word} {s : State} {code : ExitCode} (h : (check a s.mode).code = some code) :
    memRead a s = .raised (raiseFatal code s) := by simp [memRead_eq, h]

theorem memWrite_refused {a v : Word} {s : State} {code : ExitCode} (h : (check a s.mode).code = some code) :
    memWrite a v s = .raised (raiseFatal code s) := by simp [memWrite_eq, h]

/-- Everything `FetchOperand` can do (40_execute_loop.md R73). -/
theorem fetchOperand_eq (s : State) :
    fetchOperand s =
      match (check s.pc s.mode).code with
      | some code => .raised (raiseFatal code s)
      | none => .done (s.cell s.pc) { s with pc := s.pc + 1#32, bus := s.bus ++ [.read s.pc] } := by
  unfold fetchOperand
  rw [memRead_eq]
  cases (check s.pc s.mode).code <;> rfl

/-- Everything the target read of JUMP and JUMP_RETURN can do (90_conflicts.md C3). -/
theorem peekOperand_eq (s : State) :
    peekOperand s =
      match (check s.pc s.mode).code with
      | some code => .raised (raiseFatal code s)
      | none => .done (s.cell s.pc) (s.record [.read s.pc]) := memRead_eq s.pc s

/-- Everything the fetch can do (40_execute_loop.md R71). -/
theorem fetch_eq (s : State) :
    fetch s =
      match (check s.pc s.mode).code with
      | some code => .raised (raiseFatal code s)
      | none => .done () s.fetched := by
  unfold fetch
  rw [memRead_eq]
  cases (check s.pc s.mode).code <;> rfl

/-- Everything `PushValue` can do (10_state.md R26). -/
theorem pushValue_eq (v : Word) (s : State) :
    pushValue v s =
      match (check (s.sp - 1#32) s.mode).code with
      | some code => .raised (raiseFatal code { s with sp := s.sp - 1#32 })
      | none =>
        .done () { s with
          sp := s.sp - 1#32, mem := Memory.write s.mem (s.sp - 1#32).toNat v,
          bus := s.bus ++ [.write (s.sp - 1#32) v] } := memWrite_eq _ _ _

/-- Everything `PopValue` can do (10_state.md R27). -/
theorem popValue_eq (s : State) :
    popValue s =
      match (check s.sp s.mode).code with
      | some code => .raised (raiseFatal code s)
      | none => .done (s.cell s.sp) { s with sp := s.sp + 1#32, bus := s.bus ++ [.read s.sp] } := by
  unfold popValue
  rw [memRead_eq]
  cases (check s.sp s.mode).code <;> rfl

/-- What `PushFrame` does when none of its writes raises (10_state.md R28). -/
theorem pushFrame_done {s : State}
    (h1 : check (s.sp - 1#32) s.mode = .ok) (h2 : check (s.sp - 2#32) s.mode = .ok)
    (h3 : check (s.sp - 3#32) s.mode = .ok) (h4 : check (s.sp - 4#32) s.mode = .ok)
    (h5 : check (s.sp - 5#32) s.mode = .ok) :
    pushFrame s =
      .done () { s with
        sp := s.sp - 5#32, mem := applyWrites (frameWrites s.sp s.pc s.ir s.ac s.x s.y) s.mem,
        bus := s.bus ++ frameWrites s.sp s.pc s.ir s.ac s.x s.y } := by
  simp [pushFrame, memWrite_eq, h1, h2, h3, h4, h5, applyWrites, frameWrites, Config.frameSize]

/-- The codes a refused verdict raises are codes of a run (60_exceptions.md R131, R132). -/
theorem check_code_raisedInRun {a : Word} {m : Mode} {code : ExitCode} (h : (check a m).code = some code) :
    code.raisedInRun = true := by
  cases hc : check a m <;> rw [hc] at h <;> cases h <;> rfl

/-- Everything `PushFrame` can do (R28): all five writes are let pass, and it is done; or the first of them that is
refused raises, after the writes before it, SP unmoved. -/
theorem pushFrame_cases (s : State) :
    ((∀ d ∈ [1#32, 2#32, 3#32, 4#32, 5#32], check (s.sp - d) s.mode = .ok) ∧
      pushFrame s =
        .done () { s with
          sp := s.sp - 5#32, mem := applyWrites (frameWrites s.sp s.pc s.ir s.ac s.x s.y) s.mem,
          bus := s.bus ++ frameWrites s.sp s.pc s.ir s.ac s.x s.y }) ∨
    ∃ n < 5, ∃ code, code.raisedInRun = true ∧
      pushFrame s =
        .raised { s with
          run := .halted code, mem := applyWrites ((frameWrites s.sp s.pc s.ir s.ac s.x s.y).take n) s.mem,
          bus := s.bus ++ (frameWrites s.sp s.pc s.ir s.ac s.x s.y).take n } := by
  cases h1 : (check (s.sp - 1#32) s.mode).code with
  | some c =>
    exact .inr ⟨0, by omega, c, check_code_raisedInRun h1, by simp [pushFrame, memWrite_eq, h1, applyWrites, raiseFatal]⟩
  | none =>
  cases h2 : (check (s.sp - 2#32) s.mode).code with
  | some c =>
    exact .inr ⟨1, by omega, c, check_code_raisedInRun h2, by
      simp [pushFrame, memWrite_eq, h1, h2, applyWrites, frameWrites, raiseFatal]⟩
  | none =>
  cases h3 : (check (s.sp - 3#32) s.mode).code with
  | some c =>
    exact .inr ⟨2, by omega, c, check_code_raisedInRun h3, by
      simp [pushFrame, memWrite_eq, h1, h2, h3, applyWrites, frameWrites, raiseFatal]⟩
  | none =>
  cases h4 : (check (s.sp - 4#32) s.mode).code with
  | some c =>
    exact .inr ⟨3, by omega, c, check_code_raisedInRun h4, by
      simp [pushFrame, memWrite_eq, h1, h2, h3, h4, applyWrites, frameWrites, raiseFatal]⟩
  | none =>
  cases h5 : (check (s.sp - 5#32) s.mode).code with
  | some c =>
    exact .inr ⟨4, by omega, c, check_code_raisedInRun h5, by
      simp [pushFrame, memWrite_eq, h1, h2, h3, h4, h5, applyWrites, frameWrites, raiseFatal]⟩
  | none =>
    rw [Verdict.code_eq_none] at h1 h2 h3 h4 h5
    exact .inl ⟨by simp [h1, h2, h3, h4, h5], pushFrame_done h1 h2 h3 h4 h5⟩

/-- The five offsets of a frame, as addresses from the new SP up (10_state.md R28, R29). -/
theorem frame_offsets (sp : Word) :
    sp - 5#32 + 1#32 = sp - 4#32 ∧ sp - 5#32 + 2#32 = sp - 3#32 ∧ sp - 5#32 + 3#32 = sp - 2#32 ∧
      sp - 5#32 + 4#32 = sp - 1#32 ∧ sp - 5#32 + 5#32 = sp := by
  refine ⟨?_, ?_, ?_, ?_, ?_⟩ <;> bv_omega

/-- Different offsets below SP are different cells. -/
theorem frame_cells_ne (sp : Word) {i j : Word} (h : i ≠ j) : (sp - i).toNat ≠ (sp - j).toNat := by
  intro hc
  have := BitVec.eq_of_toNat_eq hc
  exact h (by bv_omega)

/-- The cells after the five writes of a frame: canonical still, and each frame cell holds its register (R28). -/
theorem frameWrites_cells {m : Memory} (hw : Memory.wf m = true) (sp pc ir ac x y : Word)
    (hb : ∀ d ∈ [1#32, 2#32, 3#32, 4#32, 5#32], inBounds (sp - d) = true) :
    Memory.wf (applyWrites (frameWrites sp pc ir ac x y) m) = true ∧
    Memory.read (applyWrites (frameWrites sp pc ir ac x y) m) (sp - 1#32).toNat = pc ∧
    Memory.read (applyWrites (frameWrites sp pc ir ac x y) m) (sp - 2#32).toNat = ir ∧
    Memory.read (applyWrites (frameWrites sp pc ir ac x y) m) (sp - 3#32).toNat = ac ∧
    Memory.read (applyWrites (frameWrites sp pc ir ac x y) m) (sp - 4#32).toNat = x ∧
    Memory.read (applyWrites (frameWrites sp pc ir ac x y) m) (sp - 5#32).toNat = y := by
  simp only [List.mem_cons, List.not_mem_nil, or_false, forall_eq_or_imp, forall_eq] at hb
  obtain ⟨b1, b2, b3, b4, b5⟩ := hb
  have w1 := Memory.wf_write (v := pc) hw (inBounds_lt b1)
  have w2 := Memory.wf_write (v := ir) w1 (inBounds_lt b2)
  have w3 := Memory.wf_write (v := ac) w2 (inBounds_lt b3)
  have w4 := Memory.wf_write (v := x) w3 (inBounds_lt b4)
  have w5 := Memory.wf_write (v := y) w4 (inBounds_lt b5)
  have ne {i j : Word} (h : i ≠ j) := frame_cells_ne sp h
  simp only [frameWrites, applyWrites]
  refine ⟨w5, ?_, ?_, ?_, ?_, Memory.read_write_eq w4⟩
  · rw [Memory.read_write_ne (ne (by decide)), Memory.read_write_ne (ne (by decide)),
      Memory.read_write_ne (ne (by decide)), Memory.read_write_ne (ne (by decide)), Memory.read_write_eq hw]
  · rw [Memory.read_write_ne (ne (by decide)), Memory.read_write_ne (ne (by decide)),
      Memory.read_write_ne (ne (by decide)), Memory.read_write_eq w1]
  · rw [Memory.read_write_ne (ne (by decide)), Memory.read_write_ne (ne (by decide)), Memory.read_write_eq w2]
  · rw [Memory.read_write_ne (ne (by decide)), Memory.read_write_eq w3]

/-- What `PopFrame` does when none of its reads raises (10_state.md R29). -/
theorem popFrame_done {s : State} (hf : frameReadable s.sp s.mode = true) :
    popFrame s =
      .done () { s with
        y := s.cell s.sp, x := s.cell (s.sp + 1#32), ac := s.cell (s.sp + 2#32), ir := s.cell (s.sp + 3#32),
        pc := s.cell (s.sp + 4#32), sp := s.sp + 5#32,
        bus := s.bus ++
          [.read s.sp, .read (s.sp + 1#32), .read (s.sp + 2#32), .read (s.sp + 3#32), .read (s.sp + 4#32)] } := by
  simp only [frameReadable, List.all_cons, List.all_nil, Bool.and_true, Bool.and_eq_true, beq_iff_eq] at hf
  obtain ⟨h1, h2, h3, h4, h5⟩ := hf
  rw [BitVec.add_zero] at h1
  simp [popFrame, memRead_eq, h1, h2, h3, h4, h5, State.record, State.cell, Config.frameSize]

/-- The five READs of a frame popped from `sp` up (R29, 70_reset_and_hazards.md R163). -/
def frameReads (sp : Word) : List Request :=
  [.read sp, .read (sp + 1#32), .read (sp + 2#32), .read (sp + 3#32), .read (sp + 4#32)]

/-- Everything `PopFrame` can do (R29): all five reads are let pass, and it is done as `popFrame_done` says; or the
first of them that is refused raises, after the reads before it: only Y, X, AC and IR may have been written. -/
theorem popFrame_cases (s : State) :
    frameReadable s.sp s.mode = true ∨
    ∃ n < 5, ∃ code y x ac ir, code.raisedInRun = true ∧
      popFrame s =
        .raised { s with
          y := y, x := x, ac := ac, ir := ir, run := .halted code, bus := s.bus ++ (frameReads s.sp).take n } := by
  cases h1 : (check s.sp s.mode).code with
  | some c =>
    exact .inr ⟨0, by omega, c, s.y, s.x, s.ac, s.ir, check_code_raisedInRun h1, by simp [popFrame, memRead_eq, h1, raiseFatal]⟩
  | none =>
  cases h2 : (check (s.sp + 1#32) s.mode).code with
  | some c =>
    exact .inr ⟨1, by omega, c, s.cell s.sp, s.x, s.ac, s.ir, check_code_raisedInRun h2, by
      simp [popFrame, memRead_eq, h1, h2, frameReads, State.record, raiseFatal]⟩
  | none =>
  cases h3 : (check (s.sp + 2#32) s.mode).code with
  | some c =>
    exact .inr ⟨2, by omega, c, s.cell s.sp, s.cell (s.sp + 1#32), s.ac, s.ir, check_code_raisedInRun h3, by
      simp [popFrame, memRead_eq, h1, h2, h3, frameReads, State.record, State.cell, raiseFatal]⟩
  | none =>
  cases h4 : (check (s.sp + 3#32) s.mode).code with
  | some c =>
    exact .inr ⟨3, by omega, c, s.cell s.sp, s.cell (s.sp + 1#32), s.cell (s.sp + 2#32), s.ir,
      check_code_raisedInRun h4, by
        simp [popFrame, memRead_eq, h1, h2, h3, h4, frameReads, State.record, State.cell, raiseFatal]⟩
  | none =>
  cases h5 : (check (s.sp + 4#32) s.mode).code with
  | some c =>
    exact .inr ⟨4, by omega, c, s.cell s.sp, s.cell (s.sp + 1#32), s.cell (s.sp + 2#32), s.cell (s.sp + 3#32),
      check_code_raisedInRun h5, by
        simp [popFrame, memRead_eq, h1, h2, h3, h4, h5, frameReads, State.record, State.cell, raiseFatal]⟩
  | none =>
    rw [Verdict.code_eq_none] at h1 h2 h3 h4 h5
    exact .inl (by simp [frameReadable, h1, h2, h3, h4, h5])

/-- An interrupt is dropped without trace unless `(mode, IE) = (User, true)` (60_exceptions.md R137). -/
theorem triggerInterrupt_dropped {h : Word} {s : State} (hs : ¬(s.mode = .user ∧ s.ie = true)) :
    triggerInterrupt h s = .done () s := if_neg hs

/-- What a taken interrupt does when none of its frame writes raises (60_exceptions.md R136). -/
theorem triggerInterrupt_taken {h : Word} {s : State} (hm : s.mode = .user) (hi : s.ie = true)
    (hf : frameFits s.ksp = true) : triggerInterrupt h s = .done () (s.interrupted h) := by
  simp only [frameFits, List.all_cons, List.all_nil, Bool.and_true, Bool.and_eq_true, beq_iff_eq] at hf
  obtain ⟨h1, h2, h3, h4, h5⟩ := hf
  simp only [triggerInterrupt, hm, hi, and_self, if_true]
  rw [pushFrame_done (s := enterKernel s) h1 h2 h3 h4 h5]
  rfl

/-- What a return from interrupt does when none of its frame reads raises (60_exceptions.md R139). -/
theorem returnFromInterrupt_done {s : State} (hf : frameReadable s.sp s.mode = true) :
    returnFromInterrupt s = .done () s.returned := by
  unfold returnFromInterrupt
  rw [popFrame_done hf]
  rfl

/-- The five frame cells below `sp`, one by one. -/
theorem frameFits_iff {sp : Word} :
    frameFits sp = true ↔ ∀ d ∈ [1#32, 2#32, 3#32, 4#32, 5#32], check (sp - d) .kernel = .ok := by
  simp [frameFits]

/-- Everything `TriggerInterrupt` can do (60_exceptions.md R136, R137): it is dropped; or taken, the frame pushed and
the handler next; or taken and halted at a refused frame write, the mode already switched. -/
theorem triggerInterrupt_cases (h : Word) (s : State) :
    (¬(s.mode = .user ∧ s.ie = true) ∧ triggerInterrupt h s = .done () s) ∨
    (s.mode = .user ∧ s.ie = true ∧ frameFits s.ksp = true ∧ triggerInterrupt h s = .done () (s.interrupted h)) ∨
    (s.mode = .user ∧ s.ie = true ∧ ∃ n < 5, ∃ code, code.raisedInRun = true ∧
      triggerInterrupt h s =
        .raised { enterKernel s with
          run := .halted code, mem := applyWrites ((frameWrites s.ksp s.pc s.ir s.ac s.x s.y).take n) s.mem,
          bus := s.bus ++ (frameWrites s.ksp s.pc s.ir s.ac s.x s.y).take n }) := by
  by_cases hs : s.mode = .user ∧ s.ie = true
  · rcases pushFrame_cases (enterKernel s) with ⟨hf, _⟩ | ⟨n, hn, code, hc, hp⟩
    · exact .inr (.inl ⟨hs.1, hs.2, frameFits_iff.2 hf, triggerInterrupt_taken hs.1 hs.2 (frameFits_iff.2 hf)⟩)
    · refine .inr (.inr ⟨hs.1, hs.2, n, hn, code, hc, ?_⟩)
      simp only [triggerInterrupt, hs, and_self, if_true, hp, Res.andThen_raised]
      rfl
  · exact .inl ⟨hs, triggerInterrupt_dropped hs⟩

/-- Everything `ReturnFromInterrupt` can do (60_exceptions.md R139): it is done; or it halts at a refused frame read,
the mode not yet switched. -/
theorem returnFromInterrupt_cases (s : State) :
    (frameReadable s.sp s.mode = true ∧ returnFromInterrupt s = .done () s.returned) ∨
    ∃ n < 5, ∃ code y x ac ir, code.raisedInRun = true ∧
      returnFromInterrupt s =
        .raised { s with
          y := y, x := x, ac := ac, ir := ir, run := .halted code, bus := s.bus ++ (frameReads s.sp).take n } := by
  rcases popFrame_cases s with h | ⟨n, hn, code, y, x, ac, ir, hc, hp⟩
  · exact .inl ⟨h, returnFromInterrupt_done h⟩
  · exact .inr ⟨n, hn, code, y, x, ac, ir, hc, by simp [returnFromInterrupt, hp]⟩

end Sys2Proof.Machine
end

