-- ==== Sys2Proof/Laws/PerInstr.lean ====
section
/-! SUPPORT. Statements made once per instruction. -/

namespace Sys2Proof.Laws.DecodeEncode

/-- The opcode cell the encoder writes for an instruction is one the decoder reads back as it, and its cells
are as many as its format has (30_encoding.md R60, R61, R63, R65). -/
def Statement (i : Instr) : Prop :=
  decodeOpcode (encodeOpcode i) = .ok i ∧
    ∀ c : Code, c.instr = i → c.wellFormed = true → (encode c).length = i.format.cells

/-- The cells of a well-formed instruction are as many as its format has (R60). -/
theorem encode_length (c : Code) (h : c.wellFormed = true) : (encode c).length = c.instr.format.cells := by
  obtain ⟨i, v⟩ := c
  cases v <;> cases hf : i.format <;>
    simp_all [Code.wellFormed, Code.operandPresent, Code.operandAbsent, encode, Format.cells]

theorem loadVal : Statement .loadVal := ⟨rfl, fun c hc h => hc ▸ encode_length c h⟩

theorem loadAddr : Statement .loadAddr := ⟨rfl, fun c hc h => hc ▸ encode_length c h⟩

theorem loadIndAddr : Statement .loadIndAddr := ⟨rfl, fun c hc h => hc ▸ encode_length c h⟩

theorem loadIdxXAddr : Statement .loadIdxXAddr := ⟨rfl, fun c hc h => hc ▸ encode_length c h⟩

theorem loadIdxYAddr : Statement .loadIdxYAddr := ⟨rfl, fun c hc h => hc ▸ encode_length c h⟩

theorem loadSpx : Statement .loadSpx := ⟨rfl, fun c hc h => hc ▸ encode_length c h⟩

theorem store : Statement .store := ⟨rfl, fun c hc h => hc ▸ encode_length c h⟩

theorem get : Statement .get := ⟨rfl, fun c hc h => hc ▸ encode_length c h⟩

theorem put : Statement .put := ⟨rfl, fun c hc h => hc ▸ encode_length c h⟩

theorem addx : Statement .addx := ⟨rfl, fun c hc h => hc ▸ encode_length c h⟩

theorem addy : Statement .addy := ⟨rfl, fun c hc h => hc ▸ encode_length c h⟩

theorem subx : Statement .subx := ⟨rfl, fun c hc h => hc ▸ encode_length c h⟩

theorem suby : Statement .suby := ⟨rfl, fun c hc h => hc ▸ encode_length c h⟩

theorem copyToX : Statement .copyToX := ⟨rfl, fun c hc h => hc ▸ encode_length c h⟩

theorem copyFrX : Statement .copyFrX := ⟨rfl, fun c hc h => hc ▸ encode_length c h⟩

theorem copyToY : Statement .copyToY := ⟨rfl, fun c hc h => hc ▸ encode_length c h⟩

theorem copyFrY : Statement .copyFrY := ⟨rfl, fun c hc h => hc ▸ encode_length c h⟩

theorem copyToSp : Statement .copyToSp := ⟨rfl, fun c hc h => hc ▸ encode_length c h⟩

theorem copyFrSp : Statement .copyFrSp := ⟨rfl, fun c hc h => hc ▸ encode_length c h⟩

theorem jump : Statement .jump := ⟨rfl, fun c hc h => hc ▸ encode_length c h⟩

theorem jumpIfEq : Statement .jumpIfEq := ⟨rfl, fun c hc h => hc ▸ encode_length c h⟩

theorem jumpIfNeq : Statement .jumpIfNeq := ⟨rfl, fun c hc h => hc ▸ encode_length c h⟩

theorem jumpReturn : Statement .jumpReturn := ⟨rfl, fun c hc h => hc ▸ encode_length c h⟩

theorem ret : Statement .ret := ⟨rfl, fun c hc h => hc ▸ encode_length c h⟩

theorem incx : Statement .incx := ⟨rfl, fun c hc h => hc ▸ encode_length c h⟩

theorem decx : Statement .decx := ⟨rfl, fun c hc h => hc ▸ encode_length c h⟩

theorem push : Statement .push := ⟨rfl, fun c hc h => hc ▸ encode_length c h⟩

theorem pop : Statement .pop := ⟨rfl, fun c hc h => hc ▸ encode_length c h⟩

theorem syscall : Statement .syscall := ⟨rfl, fun c hc h => hc ▸ encode_length c h⟩

theorem sysreturn : Statement .sysreturn := ⟨rfl, fun c hc h => hc ▸ encode_length c h⟩

theorem halt : Statement .halt := ⟨rfl, fun c hc h => hc ▸ encode_length c h⟩

end Sys2Proof.Laws.DecodeEncode
end

