-- ==== Sys2Proof/Laws/Step.lean ====
section
/-! SUPPORT. What one step can do, once: later proofs take a step apart with `step_cases` and do not unfold it. -/

namespace Sys2Proof.Machine

/-- Every meaning answers a next state: a fatal error is one too (60_exceptions.md R133, log entry 9). -/
theorem exec_next (i : Instr) (s : State) : ∃ t, exec i s = .next t := by
  cases i <;> exact ⟨_, rfl⟩

/-- Everything a step that answers a next state has done (40_execute_loop.md R70): the fetch was refused, or the
opcode was illegal, or the decoded instruction ran and what follows it was done. -/
theorem step_cases {s t : State} (h : step s = .next t) :
    s.run = .running ∧ 0 < s.timerValue ∧
      ((∃ code, (check s.pc s.mode).code = some code ∧ t = raiseFatal code s) ∨
        (check s.pc s.mode = .ok ∧
          ((∃ why, decodeOpcode (s.cell s.pc) = .error why ∧ t = raiseFatal .invalidOpcode s.fetched) ∨
            ∃ i u, decodeOpcode (s.cell s.pc) = .ok i ∧ exec i s.fetched = .next u ∧ t = afterExecute u))) := by
  unfold step at h
  cases hr : s.run with
  | halted code =>
    rw [hr] at h
    cases h
  | running =>
    rw [hr] at h
    by_cases ht : s.timerValue = 0
    · simp [ht] at h
    refine ⟨rfl, by omega, ?_⟩
    simp only [ht, if_false, fetch_eq] at h
    cases hc : (check s.pc s.mode).code with
    | some code =>
      rw [hc] at h
      cases h
      exact .inl ⟨code, rfl, rfl⟩
    | none =>
      rw [hc] at h
      refine .inr ⟨Verdict.code_eq_none.1 hc, ?_⟩
      simp only [decodeAndExecute] at h
      cases hd : decodeOpcode (s.cell s.pc) with
      | error why =>
        rw [show decodeOpcode s.fetched.ir = .error why from hd] at h
        cases h
        exact .inl ⟨why, rfl, rfl⟩
      | ok i =>
        rw [show decodeOpcode s.fetched.ir = .ok i from hd] at h
        obtain ⟨u, hu⟩ := exec_next i s.fetched
        simp only [hu] at h
        cases h
        exact .inr ⟨i, u, rfl, hu, rfl⟩

/-- After an instruction that raised or was END nothing is done (40_execute_loop.md R75). -/
theorem afterExecute_halted {u : State} {code : ExitCode} (h : u.run = .halted code) : afterExecute u = u := by
  simp [afterExecute, h]

/-- After an instruction that finished, the counter is incremented and the timer trigger is called or not
(40_execute_loop.md R74). -/
theorem afterExecute_running {u : State} (h : u.run = .running) :
    afterExecute u =
      if (u.counter + 1) % u.timerValue = 0 then
        (triggerInterrupt 1000#32 { u with counter := u.counter + 1 }).state
      else { u with counter := u.counter + 1 } := by
  simp only [afterExecute, h, timerCheck]
  rfl

end Sys2Proof.Machine
end

