-- ==== Sys2Proof/Tests/Slice0.lean ====
section
/-! SUPPORT. The model's own tests. Expected values are the spec's: 95_test_vectors.md (part and row named at
each test) or the examples of the instruction rules. One step on a small state each. -/

namespace Sys2Proof.Tests

open Sys2Proof Sys2Proof.Machine

/-- A field of the state an outcome leaves; none where there is no next state. -/
def look {α : Type} (o : StepOutcome) (f : State → α) : Option α :=
  match o with
  | .next t => some (f t)
  | .fault _ => none
  | .refused _ => none

/-- The reset state with the given PC and cells: User mode, SP = 1000. -/
def userAt (pc : Word) (mem : Memory) : State := { State.reset with pc := pc, mem := mem }

/-- A handler's state: Kernel mode, IE false, SP = 1995, USP = 1000. -/
def kernelAt (pc : Word) (mem : Memory) : State :=
  { State.reset with pc := pc, mem := mem, mode := .kernel, ie := false, sp := 1995#32, usp := 1000#32 }

/-! ### WellFormed: each check refuses an ill-formed term -/

theorem test_wellFormed_refuses_missing_operand :
    Code.operandPresent ⟨.loadVal, none⟩ = false ∧ Code.wellFormed ⟨.loadVal, none⟩ = false := by decide

theorem test_wellFormed_refuses_extra_operand :
    Code.operandAbsent ⟨.addx, some 3#32⟩ = false ∧ Code.wellFormed ⟨.addx, some 3#32⟩ = false := by decide

theorem test_wellFormed_accepts :
    Code.wellFormed ⟨.jump, some 5#32⟩ = true ∧ Code.wellFormed ⟨.halt, none⟩ = true := by decide

/-! ### Decode: every opcode cell written out from the encoding table of 30_encoding.md R63 -/

theorem test_decode_loads_store :
    decodeOpcode 0x00000001#32 = .ok .loadVal ∧ decodeOpcode 0x00000002#32 = .ok .loadAddr ∧
    decodeOpcode 0x00000003#32 = .ok .loadIndAddr ∧ decodeOpcode 0x00000004#32 = .ok .loadIdxXAddr ∧
    decodeOpcode 0x00000005#32 = .ok .loadIdxYAddr ∧ decodeOpcode 0x00000006#32 = .ok .loadSpx ∧
    decodeOpcode 0x00000007#32 = .ok .store := by decide

theorem test_decode_io_alu :
    decodeOpcode 0x00000008#32 = .ok .get ∧ decodeOpcode 0x00000009#32 = .ok .put ∧
    decodeOpcode 0x0000000A#32 = .ok .addx ∧ decodeOpcode 0x0000000B#32 = .ok .addy ∧
    decodeOpcode 0x0000000C#32 = .ok .subx ∧ decodeOpcode 0x0000000D#32 = .ok .suby ∧
    decodeOpcode 0x00000019#32 = .ok .incx ∧ decodeOpcode 0x0000001A#32 = .ok .decx := by decide

theorem test_decode_copies :
    decodeOpcode 0x0000000E#32 = .ok .copyToX ∧ decodeOpcode 0x0000000F#32 = .ok .copyFrX ∧
    decodeOpcode 0x00000010#32 = .ok .copyToY ∧ decodeOpcode 0x00000011#32 = .ok .copyFrY ∧
    decodeOpcode 0x00000012#32 = .ok .copyToSp ∧ decodeOpcode 0x00000013#32 = .ok .copyFrSp := by decide

theorem test_decode_control_stack :
    decodeOpcode 0x00000014#32 = .ok .jump ∧ decodeOpcode 0x00000015#32 = .ok .jumpIfEq ∧
    decodeOpcode 0x00000016#32 = .ok .jumpIfNeq ∧ decodeOpcode 0x00000017#32 = .ok .jumpReturn ∧
    decodeOpcode 0x00000018#32 = .ok .ret ∧ decodeOpcode 0x0000001B#32 = .ok .push ∧
    decodeOpcode 0x0000001C#32 = .ok .pop := by decide

theorem test_decode_system :
    decodeOpcode 0x0000001D#32 = .ok .syscall ∧ decodeOpcode 0x0000001E#32 = .ok .sysreturn ∧
    decodeOpcode 0x00000032#32 = .ok .halt := by decide

/-- B8 row 10 and R61: no mask is applied. -/
theorem test_decode_rejects :
    decodeOpcode 0#32 = .error (.illegalOpcode 0#32) ∧ decodeOpcode 31#32 = .error (.illegalOpcode 31#32) ∧
    decodeOpcode 99#32 = .error (.illegalOpcode 99#32) ∧
    decodeOpcode 257#32 = .error (.illegalOpcode 257#32) ∧
    decodeOpcode (-1#32) = .error (.illegalOpcode (-1#32)) := by decide

theorem test_decode_cells :
    decode [7#32, 10#32, 50#32] = .ok (⟨.store, some 10#32⟩, [50#32]) ∧ decode [7#32] = .error (.noOperandCell .store) ∧
    decode [] = .error .noOpcodeCell ∧ decodeTableWord 32 9 = some .put ∧ decodeTableWord 32 49 = none := by decide

/-- A1: the cells of the source's end-to-end scenario. -/
theorem test_decode_source_scenario :
    decodeProgram [1#32, 5#32, 7#32, 10#32, 2#32, 10#32, 9#32, 1#32, 50#32] =
      .ok [⟨.loadVal, some 5#32⟩, ⟨.store, some 10#32⟩, ⟨.loadAddr, some 10#32⟩, ⟨.put, some 1#32⟩, ⟨.halt, none⟩] := by
  decide

/-! ### Access control: the table of B1 -/

theorem test_check_user :
    check 0#32 .user = .ok ∧ check 999#32 .user = .ok ∧ check 1000#32 .user = .kernelDenied ∧
    check 1999#32 .user = .kernelDenied ∧ check 2000#32 .user = .outOfBounds ∧ check (-1#32) .user = .outOfBounds ∧
    check 0x80000000#32 .user = .outOfBounds ∧ check 0x7FFFFFFF#32 .user = .outOfBounds := by decide

theorem test_check_kernel :
    check 0#32 .kernel = .userDenied ∧ check 999#32 .kernel = .userDenied ∧ check 1000#32 .kernel = .ok ∧
    check 1500#32 .kernel = .ok ∧ check 1999#32 .kernel = .ok ∧ check 2000#32 .kernel = .outOfBounds ∧
    check (-1#32) .kernel = .outOfBounds := by decide

/-- A8: the Memory Store's own answers. -/
theorem test_serve :
    serve [(10, 5#32)] (.read 10#32) = (⟨.success, 5#32⟩, [(10, 5#32)]) ∧
    (serve [] (.read 2000#32)).1.status = .readFailure ∧ serve [] (.write (-1#32) 0#32) = (⟨.writeFailure, 0#32⟩, []) ∧
    (serve [] .otherKind).1.status = .invalidMemAction := by decide

/-! ### Loads and STORE: B2 -/

/-- B2 row 1. -/
theorem test_loadVal :
    look (step (userAt 100#32 [(100, 1#32), (101, 5#32)])) (fun t => (t.ac, t.pc, t.counter, t.bus)) =
      some (5#32, 102#32, 1, [.read 100#32, .read 101#32]) := by decide

/-- B2 row 3. -/
theorem test_loadAddr :
    look (step (userAt 100#32 [(10, 5#32), (100, 2#32), (101, 10#32)])) (fun t => (t.ac, t.pc, t.bus)) =
      some (5#32, 102#32, [.read 100#32, .read 101#32, .read 10#32]) := by decide

/-- B2 row 5. -/
theorem test_loadAddr_denied :
    look (step (userAt 100#32 [(100, 2#32), (101, 1000#32)])) (fun t => (t.run, t.pc, t.counter)) =
      some (.halted .kernelMemAccessDenied, 102#32, 0) := by decide

/-- B2 row 7. -/
theorem test_loadIndAddr :
    look (step (userAt 100#32 [(20, 30#32), (30, 77#32), (100, 3#32), (101, 20#32)])) (fun t => (t.ac, t.bus)) =
      some (77#32, [.read 100#32, .read 101#32, .read 20#32, .read 30#32]) := by decide

/-- B2 row 8. -/
theorem test_loadIndAddr_denied :
    look (step (userAt 100#32 [(20, 1500#32), (100, 3#32), (101, 20#32)])) (fun t => (t.run, t.bus)) =
      some (.halted .kernelMemAccessDenied, [.read 100#32, .read 101#32, .read 20#32]) := by decide

/-- B2 row 11: only the sum is checked. -/
theorem test_loadIdxXAddr :
    look (step { userAt 100#32 [(100, 4#32), (101, 2500#32)] with x := -2400#32 }) (fun t => (t.ac, t.x, t.run)) =
      some (4#32, -2400#32, .running) := by decide

/-- B2, the wrap corner: both terms near -2^31. -/
theorem test_loadIdxXAddr_wraps :
    look (step { userAt 100#32 [(0, 6#32), (100, 4#32), (101, 0x80000000#32)] with x := 0x80000000#32 }) (fun t => t.ac) =
      some 6#32 := by decide

/-- B2 row 14. -/
theorem test_loadIdxYAddr :
    look (step { userAt 100#32 [(52, 4#32), (100, 5#32), (101, 50#32)] with y := 2#32, x := 7#32 }) (fun t => (t.ac, t.y)) =
      some (4#32, 2#32) := by decide

/-- B2 row 15. -/
theorem test_loadSpx :
    look (step { userAt 100#32 [(100, 6#32), (999, 42#32)] with sp := 998#32, x := 1#32 }) (fun t => (t.ac, t.pc, t.sp)) =
      some (42#32, 101#32, 998#32) := by decide

/-- B2 row 17. -/
theorem test_store :
    look (step { userAt 100#32 [(100, 7#32), (101, 10#32)] with ac := 5#32 }) (fun t => (t.mem, t.pc, t.ac)) =
      some ([(10, 5#32), (100, 7#32), (101, 10#32)], 102#32, 5#32) := by decide

/-- B2 row 19: a refused store leaves memory unchanged. -/
theorem test_store_denied :
    look (step { userAt 100#32 [(100, 7#32), (101, 1000#32)] with ac := 1#32 }) (fun t => (t.run, t.mem)) =
      some (.halted .kernelMemAccessDenied, [(100, 7#32), (101, 1000#32)]) := by decide

/-! ### GET and PUT: B3 -/

theorem test_get :
    look (step (userAt 100#32 [(100, 8#32)])) (fun t => (t.pc, t.drawIndex, t.run)) = some (101#32, 1, .running) := by decide

/-- B3 row 4. -/
theorem test_put_number :
    look (step { userAt 100#32 [(100, 9#32), (101, 1#32)] with ac := 5#32 }) (fun t => (t.output, t.pc, t.ac)) =
      some ([⟨.numeric, 5#32⟩], 102#32, 5#32) := by decide

/-- B3 row 7. -/
theorem test_put_invalid_port :
    look (step (userAt 100#32 [(100, 9#32)])) (fun t => (t.run, t.output, t.pc)) =
      some (.halted .invalidPortCall, [], 102#32) := by decide

/-! ### Arithmetic: B4 -/

/-- B4 row 4. -/
theorem test_addx_wraps :
    look (step { userAt 100#32 [(100, 10#32)] with ac := 2147483647#32, x := 1#32 }) (fun t => t.ac.toInt) =
      some (-2147483648) := by decide

/-- B4 row 5. -/
theorem test_addy :
    look (step { userAt 100#32 [(100, 11#32)] with ac := 7#32, y := 14#32 }) (fun t => (t.ac, t.y, t.x)) =
      some (21#32, 14#32, 0#32) := by decide

/-- B4 row 8. -/
theorem test_subx_negative :
    look (step { userAt 100#32 [(100, 12#32)] with ac := 3#32, x := 5#32 }) (fun t => t.ac.toInt) = some (-2) := by decide

/-- B4 row 12. -/
theorem test_suby :
    look (step { userAt 100#32 [(100, 13#32)] with ac := 10#32, y := 12#32 }) (fun t => t.ac.toInt) = some (-2) := by decide

/-- B4 row 15. -/
theorem test_incx_wraps :
    look (step { userAt 100#32 [(100, 25#32)] with x := 2147483647#32 }) (fun t => (t.x.toInt, t.ac)) =
      some (-2147483648, 0#32) := by decide

/-- B4 row 17. -/
theorem test_decx :
    look (step (userAt 100#32 [(100, 26#32)])) (fun t => t.x.toInt) = some (-1) := by decide

/-! ### Copies: B5 -/

theorem test_copyToX :
    look (step { userAt 100#32 [(100, 14#32)] with ac := 3#32, x := 9#32 }) (fun t => (t.x, t.ac)) = some (3#32, 3#32) := by
  decide

theorem test_copyFrX :
    look (step { userAt 100#32 [(100, 15#32)] with ac := 7#32 }) (fun t => (t.ac, t.x)) = some (0#32, 0#32) := by decide

theorem test_copyToY :
    look (step { userAt 100#32 [(100, 16#32)] with ac := 14#32 }) (fun t => (t.y, t.ac)) = some (14#32, 14#32) := by decide

theorem test_copyFrY :
    look (step { userAt 100#32 [(100, 17#32)] with y := -6#32 }) (fun t => (t.ac, t.y)) = some (-6#32, -6#32) := by decide

/-- B5 row 5. -/
theorem test_copyToSp :
    look (step { userAt 100#32 [(100, 18#32)] with ac := 500#32 }) (fun t => (t.sp, t.usp, t.ksp)) =
      some (500#32, 0#32, 2000#32) := by decide

/-- B5 row 8. -/
theorem test_copyFrSp :
    look (step (kernelAt 1500#32 [(1500, 19#32)])) (fun t => t.ac) = some 1995#32 := by decide

/-! ### Control transfer: B6 -/

/-- B6 row 3: a bad target does not fault the jump. -/
theorem test_jump :
    look (step (userAt 0#32 [(0, 20#32), (1, 2000#32)])) (fun t => (t.pc, t.run, t.counter)) =
      some (2000#32, .running, 1) := by decide

/-- B6 rows 5 and 6. -/
theorem test_jumpIfEq :
    look (step (userAt 9#32 [(9, 21#32), (10, 14#32)])) (fun t => t.pc) = some 14#32 ∧
    look (step { userAt 9#32 [(9, 21#32), (10, 14#32)] with ac := 2#32 }) (fun t => t.pc) = some 11#32 := by decide

/-- B6 row 9: the operand is fetched though the jump would not be taken. -/
theorem test_jumpIfEq_operand_denied :
    look (step { userAt 999#32 [(999, 21#32), (1000, 5#32)] with ac := 7#32 }) (fun t => (t.run, t.pc)) =
      some (.halted .kernelMemAccessDenied, 1000#32) := by decide

/-- B6 rows 7 and 8. -/
theorem test_jumpIfNeq :
    look (step { userAt 4#32 [(4, 22#32), (5, 30#32)] with ac := -1#32 }) (fun t => t.pc) = some 30#32 ∧
    look (step (userAt 4#32 [(4, 22#32), (5, 30#32)])) (fun t => t.pc) = some 6#32 := by decide

/-- B6 row 10. -/
theorem test_jumpReturn :
    look (step (userAt 2#32 [(2, 23#32), (3, 8#32)])) (fun t => (t.pc, t.sp, Memory.read t.mem 999, t.bus)) =
      some (8#32, 999#32, 4#32, [.read 2#32, .write 999#32 4#32, .read 3#32]) := by decide

/-- B6 row 11: the push overwrites the operand cell before it is read. -/
theorem test_jumpReturn_overwrites_operand :
    look (step { userAt 997#32 [(997, 23#32), (998, 500#32)] with sp := 999#32 }) (fun t => (t.pc, t.sp)) =
      some (999#32, 998#32) := by decide

/-- B6 row 13. -/
theorem test_ret :
    look (step { userAt 14#32 [(14, 24#32), (999, 4#32)] with sp := 999#32 }) (fun t => (t.pc, t.sp)) =
      some (4#32, 1000#32) := by decide

/-! ### Stack: B7 -/

/-- B7 row 2. -/
theorem test_push :
    look (step { userAt 8#32 [(8, 27#32)] with ac := 7#32, sp := 999#32 }) (fun t => (t.sp, t.mem)) =
      some (998#32, [(8, 27#32), (998, 7#32)]) := by decide

/-- B7 row 4. -/
theorem test_push_kernel_denied :
    look (step { kernelAt 1500#32 [(1500, 27#32)] with sp := 1000#32 }) (fun t => (t.run, t.sp)) =
      some (.halted .userMemAccessDenied, 999#32) := by decide

/-- B7 row 5: the popped cell keeps its content. -/
theorem test_pop :
    look (step { userAt 12#32 [(12, 28#32), (998, 7#32)] with sp := 998#32 }) (fun t => (t.ac, t.sp, Memory.read t.mem 998)) =
      some (7#32, 999#32, 7#32) := by decide

/-- B7 row 7. -/
theorem test_pop_empty_kernel :
    look (step { kernelAt 1500#32 [(1500, 28#32)] with sp := 2000#32 }) (fun t => (t.run, t.sp)) =
      some (.halted .memoryOutOfBounds, 2000#32) := by decide

/-! ### System: B8 -/

/-- B8 rows 1 and 3: taken; a tick on the same instruction is dropped. -/
theorem test_syscall_taken :
    look (step { userAt 2#32 [(2, 29#32)] with ac := 65#32, counter := 1, timerValue := 2 })
        (fun t => (t.pc, t.sp, t.usp, t.ksp, t.mode, t.ie)) =
      some (1500#32, 1995#32, 1000#32, 2000#32, .kernel, false) := by decide

/-- B8 row 1, the frame. -/
theorem test_syscall_frame :
    look (step { userAt 2#32 [(2, 29#32)] with ac := 65#32, counter := 1, timerValue := 2 })
        (fun t => (t.counter, t.mem)) =
      some (2, [(2, 29#32), (1997, 65#32), (1998, 29#32), (1999, 3#32)]) := by decide

/-- B8 row 2. -/
theorem test_syscall_dropped :
    look (step (kernelAt 1503#32 [(1503, 29#32)])) (fun t => (t.pc, t.sp, t.mode, t.counter, t.bus)) =
      some (1504#32, 1995#32, .kernel, 1, [.read 1503#32]) := by decide

/-- B8 row 4. -/
theorem test_sysreturn :
    look (step (kernelAt 1507#32 [(1507, 30#32), (1997, 66#32), (1998, 29#32), (1999, 3#32)]))
        (fun t => ((t.ac, t.ir, t.pc), (t.ksp, t.sp, t.mode, t.ie))) =
      some ((66#32, 29#32, 3#32), (2000#32, 1000#32, .user, true)) := by decide

/-- B8 row 6: SYSRETURN in User mode, literally. -/
theorem test_sysreturn_user :
    look (step { userAt 50#32 [(50, 30#32), (990, 11#32), (991, 12#32), (992, 13#32), (993, 14#32), (994, 15#32)] with
        sp := 990#32, usp := 1000#32 }) (fun t => (t.y, t.x, t.ac, t.ir, t.pc, t.ksp, t.sp)) =
      some (11#32, 12#32, 13#32, 14#32, 15#32, 995#32, 1000#32) := by decide

/-- B8 row 5: the registers read before the fault stay. -/
theorem test_sysreturn_unbalanced :
    look (step { kernelAt 1507#32 [(1507, 30#32), (1997, 66#32), (1998, 29#32), (1999, 3#32)] with sp := 1996#32 })
        (fun t => (t.x, t.ac, t.ir, t.run, t.mode)) =
      some (66#32, 29#32, 3#32, .halted .memoryOutOfBounds, .kernel) := by decide

/-- B8 row 8. -/
theorem test_syscall_bad_ksp :
    look (step { userAt 2#32 [(2, 29#32)] with ksp := 2003#32 }) (fun t => (t.sp, t.mode, t.run)) =
      some (2003#32, .kernel, .halted .memoryOutOfBounds) := by decide

/-- B8 row 9; END is not counted, and a halted machine has no step. -/
theorem test_halt :
    look (step { userAt 8#32 [(8, 50#32)] with counter := 4 }) (fun t => (t.run, t.pc, t.counter, t.exitCode)) =
      some (.halted .success, 9#32, 4, some .success) := by decide

theorem test_halted_has_no_step :
    look (step { userAt 8#32 [(8, 50#32)] with run := .halted .success }) (fun t => t.pc) = none := by decide

/-- A2. -/
theorem test_illegal_opcode :
    look (step (userAt 0#32 [(0, 99#32)])) (fun t => (t.run, t.ir, t.pc, t.counter)) =
      some (.halted .invalidOpcode, 99#32, 1#32, 0) := by decide

/-- B10 row 6. -/
theorem test_fetch_denied :
    look (step { userAt 1000#32 [(1000, 50#32)] with ir := 7#32 }) (fun t => (t.run, t.ir, t.pc, t.bus)) =
      some (.halted .kernelMemAccessDenied, 7#32, 1000#32, []) := by decide

/-! ### Timer: B9 -/

/-- B9 timeline 1, at `u3`: taken, the frame holds the address of the next instruction. -/
theorem test_timer_taken :
    look (step { userAt 2#32 [(2, 25#32)] with counter := 2, timerValue := 3 })
        (fun t => (t.pc, t.mode, t.counter, Memory.read t.mem 1999, Memory.read t.mem 1998, Memory.read t.mem 1996)) =
      some (1000#32, .kernel, 3, 3#32, 25#32, 1#32) := by decide

/-- P4 step 8: the tick after SYSRETURN is taken at once, with the restored PC. -/
theorem test_timer_after_sysreturn :
    look (step { kernelAt 1507#32 [(1507, 30#32), (1997, 66#32), (1998, 29#32), (1999, 3#32)] with
        counter := 7, timerValue := 4 }) (fun t => (t.pc, t.ac, t.mode, t.sp, Memory.read t.mem 1999)) =
      some (1000#32, 66#32, .kernel, 1995#32, 3#32) := by decide

/-- A timer period of 0 is no machine (R23). -/
theorem test_timerValue_zero :
    step { userAt 2#32 [] with timerValue := 0 } = .refused .timerValueNotPositive := rfl

/-! ### Reset, placing an instruction, the loader -/

/-- R30. -/
theorem test_reset :
    State.reset.pc = 0#32 ∧ State.reset.sp = 1000#32 ∧ State.reset.ksp = 2000#32 ∧ State.reset.mode = .user ∧
    State.reset.ie = true ∧ State.reset.counter = 0 ∧ State.reset.run = .running ∧ Memory.wf State.reset.mem = true := by
  decide

/-- R151. -/
theorem test_load_failed :
    (State.launch { Launch.default with loadOk := false }).exitCode = some .fileParseFailure := by decide

theorem test_withFetchWord :
    look (step (State.reset.withFetchWord 32 9)) (fun t => (t.run, t.ir)) =
      some (.halted .invalidPortCall, 9#32) := by decide

/-- R66; the lines open a comment, move the cursor, load two values and skip a blank line. -/
theorem test_loader :
    loadLines 0 [] [['x', '1'], ['.', '8'], [' ', '2', '7', ' ', 'P'], [], ['1', '4']] = some [(8, 27#32), (9, 14#32)] ∧
    loadLines 0 [] [['.', 'x']] = none := by decide

/-- R66, R62: the text format cannot write a negative cell: 2147483647 loads, 2147483648 and 4294967295 do not. -/
theorem test_loader_writes_no_negative_cell :
    loadLines 0 [] [['2', '1', '4', '7', '4', '8', '3', '6', '4', '7']] = some [(0, 2147483647#32)] ∧
    loadLines 0 [] [['2', '1', '4', '7', '4', '8', '3', '6', '4', '8']] = none ∧
    loadLines 0 [] [['4', '2', '9', '4', '9', '6', '7', '2', '9', '5']] = none := by decide

end Sys2Proof.Tests
end

