-- ==== Sys2Proof/Tests/Witnesses.lean ====
section
/-! SUPPORT. For each statement of Certificates/Slice0/Obligations.lean that has hypotheses: concrete states and
operands that meet them all, clause by clause, at the ends of their ranges. A theorem is named after its
statement. -/

namespace Sys2Proof.Tests

open Sys2Proof Sys2Proof.Machine

/-! ### Encoding -/

theorem witness_DecodeAndEncodeAgree :
    Code.wellFormed ⟨.jumpReturn, some 500#32⟩ = true ∧
    decode [23#32, 500#32, 50#32] = .ok (⟨.jumpReturn, some 500#32⟩, [50#32]) ∧
    decodeProgram [23#32, 500#32, 50#32] = .ok [⟨.jumpReturn, some 500#32⟩, ⟨.halt, none⟩] := by decide

theorem witness_DecodeRejectsExactlyTheOtherCellValues :
    decodeOpcode (-1#32) = .error (.illegalOpcode (-1#32)) ∧ decodeOpcode 0#32 = .error (.illegalOpcode 0#32) ∧
    decodeOpcode 31#32 = .error (.illegalOpcode 31#32) ∧ decodeOpcode 49#32 = .error (.illegalOpcode 49#32) ∧
    decodeOpcode 51#32 = .error (.illegalOpcode 51#32) ∧ decodeOpcode 1#32 = .ok .loadVal ∧
    decodeOpcode 30#32 = .ok .sysreturn ∧ decodeOpcode 50#32 = .ok .halt := by decide

/-! ### Access control, memory, stack manager -/

theorem witness_AccessControlVerdicts :
    check (-1#32) .user = .outOfBounds ∧ check 0#32 .user = .ok ∧ check 999#32 .user = .ok ∧
    check 1000#32 .user = .kernelDenied ∧ check 1999#32 .user = .kernelDenied ∧ check 2000#32 .user = .outOfBounds ∧
    check (-1#32) .kernel = .outOfBounds ∧ check 0#32 .kernel = .userDenied ∧ check 999#32 .kernel = .userDenied ∧
    check 1000#32 .kernel = .ok ∧ check 1999#32 .kernel = .ok ∧ check 2000#32 .kernel = .outOfBounds := by decide

theorem witness_MemoryStoreServesRequests :
    Memory.wf [(0, 5#32), (1999, 6#32)] = true ∧
    (serve [(0, 5#32), (1999, 6#32)] (.read 1999#32)).1 = ⟨.success, 6#32⟩ ∧
    (serve [(0, 5#32), (1999, 6#32)] (.read 2000#32)).1.status = .readFailure ∧
    (serve [(0, 5#32), (1999, 6#32)] (.write (-1#32) 1#32)).1.status = .writeFailure := by decide

theorem witness_ReadAfterWriteGivesTheValueWritten :
    Memory.wf (userAt 0#32 [(999, 5#32)]).mem = true ∧ check 999#32 (userAt 0#32 [(999, 5#32)]).mode = .ok ∧
    Memory.wf (kernelAt 1500#32 []).mem = true ∧ check 1000#32 (kernelAt 1500#32 []).mode = .ok := by decide

theorem witness_CanonicalCellsAreDeterminedByTheirReads :
    Memory.wf [(3, 5#32)] = true ∧ Memory.wf (Memory.write [] 3 5#32) = true ∧
    Memory.write [] 3 5#32 = [(3, 5#32)] := by decide

theorem witness_PushValueWritesBelowTheStackPointer :
    check ((userAt 0#32 []).sp - 1#32) .user = .ok ∧ check (1#32 - 1#32) .user = .ok ∧
    check (1001#32 - 1#32) .kernel = .ok ∧ (check (0#32 - 1#32) .user).code = some .memoryOutOfBounds ∧
    (check (1001#32 - 1#32) .user).code = some .kernelMemAccessDenied ∧
    (check (1000#32 - 1#32) .kernel).code = some .userMemAccessDenied := by decide

theorem witness_PopValueReadsAtTheStackPointer :
    check 999#32 .user = .ok ∧ check 1999#32 .kernel = .ok ∧
    (userAt 0#32 []).mode = .user ∧ (userAt 0#32 []).sp = 1000#32 ∧
    (check (userAt 0#32 []).sp (userAt 0#32 []).mode).code = some .kernelMemAccessDenied ∧
    { kernelAt 1500#32 [] with sp := 2000#32 }.mode = .kernel ∧ { kernelAt 1500#32 [] with sp := 2000#32 }.sp = 2000#32 := by
  decide

theorem witness_PopFrameUndoesPushFrame :
    Memory.wf [(7, 5#32)] = true ∧
    (∀ d ∈ [1#32, 2#32, 3#32, 4#32, 5#32], check (2000#32 - d) .kernel = .ok) ∧
    (∀ d ∈ [1#32, 2#32, 3#32, 4#32, 5#32], check (1005#32 - d) .kernel = .ok) ∧
    (∀ d ∈ [1#32, 2#32, 3#32, 4#32, 5#32], check (5#32 - d) .user = .ok) := by
  simp only [List.mem_cons, List.not_mem_nil, or_false, forall_eq_or_imp, forall_eq]
  decide

/-! ### The step -/

theorem witness_FetchReadsTheOpcodeCell :
    check (userAt 999#32 []).pc .user = .ok ∧
    ((userAt (-1#32) []).pc.toInt < 0 ∧ 2000 ≤ (userAt 2000#32 []).pc.toInt) ∧
    (1000 ≤ (userAt 1000#32 []).pc.toInt ∧ (userAt 1000#32 []).pc.toInt < 2000 ∧ (userAt 1000#32 []).mode = .user) ∧
    (0 ≤ (kernelAt 999#32 []).pc.toInt ∧ (kernelAt 999#32 []).pc.toInt < 1000 ∧ (kernelAt 999#32 []).mode = .kernel) := by
  decide

theorem witness_StepRunsTheDecodedInstruction :
    (userAt 999#32 [(999, 14#32)]).run = .running ∧ 0 < (userAt 999#32 [(999, 14#32)]).timerValue ∧
    check (userAt 999#32 [(999, 14#32)]).pc (userAt 999#32 [(999, 14#32)]).mode = .ok ∧
    decodeOpcode ((userAt 999#32 [(999, 14#32)]).cell 999#32) = .ok .copyToX := by decide

theorem witness_StepWithoutAnInstructionHalts :
    (userAt 1000#32 []).run = .running ∧ 0 < (userAt 1000#32 []).timerValue ∧
    (check (userAt 1000#32 []).pc (userAt 1000#32 []).mode).code = some .kernelMemAccessDenied ∧
    check (userAt 0#32 [(0, 31#32)]).pc (userAt 0#32 [(0, 31#32)]).mode = .ok ∧
    decodeOpcode ((userAt 0#32 [(0, 31#32)]).cell 0#32) = .error (.illegalOpcode 31#32) := by decide

/-- A halted state, one where the next count is no multiple of the period, one where it is. -/
theorem witness_AfterExecuteCountsAndChecksTheTimer :
    { userAt 0#32 [] with run := .halted .success }.run ≠ .running ∧
    (userAt 0#32 []).run = .running ∧ ((userAt 0#32 []).counter + 1) % (userAt 0#32 []).timerValue ≠ 0 ∧
    ({ userAt 0#32 [] with counter := 999 }.counter + 1) % { userAt 0#32 [] with counter := 999 }.timerValue = 0 := by
  decide

theorem witness_HaltedMachineHasNoStep :
    { userAt 0#32 [] with run := .halted .invalidOpcode }.run = .halted .invalidOpcode ∧
    ∃ t, step (userAt 0#32 [(0, 50#32)]) = .next t ∧ t.run = .halted .success := ⟨rfl, _, rfl, rfl⟩

theorem witness_RunningMachineAlwaysSteps : State.reset.run = .running ∧ 0 < State.reset.timerValue := by decide

theorem witness_StepCountsAtMostOneInstruction :
    (∃ t, step (userAt 0#32 [(0, 14#32)]) = .next t ∧ t.run = .running) ∧
    ∃ t, step (userAt 0#32 [(0, 50#32)]) = .next t ∧ t.counter = 0 := ⟨⟨_, rfl, rfl⟩, _, rfl, rfl⟩

theorem witness_FailedLoadHaltsBeforeAnyRequest :
    { Launch.default with loadOk := false }.loadOk = false ∧ Launch.default.loadOk = true ∧
    0 < { Launch.default with timerValue := 1 }.timerValue := by decide

/-! ### Results of the instructions: `p` is PC after the fetch -/

theorem witness_LoadValLoadsTheOperand :
    check (userAt 999#32 []).pc .user = .ok ∧
    (check (userAt 1000#32 []).pc (userAt 1000#32 []).mode).code = some .kernelMemAccessDenied := by decide

/-- The four clauses: an operand 0 or 999; an operand cell refused; an operand 1000; an operand 2000 or -1. -/
theorem witness_LoadAddrLoadsTheCell :
    check ((userAt 5#32 [(5, 999#32)]).cell 5#32) .user = .ok ∧ check (userAt 5#32 [(5, 999#32)]).pc .user = .ok ∧
    (check (kernelAt 2000#32 []).pc .kernel).code = some .memoryOutOfBounds ∧
    (check ((userAt 5#32 [(5, 1000#32)]).cell 5#32) .user).code = some .kernelMemAccessDenied ∧
    (userAt 5#32 [(5, 2000#32)]).cell 5#32 = 2000#32 ∧ (userAt 5#32 [(5, -1#32)]).cell 5#32 = -1#32 := by decide

theorem witness_LoadIndAddrFollowsThePointerCell :
    (check 5#32 .user = .ok ∧ check ((userAt 5#32 [(5, 9#32), (9, 999#32)]).cell 5#32) .user = .ok ∧
      check ((userAt 5#32 [(5, 9#32), (9, 999#32)]).cell ((userAt 5#32 [(5, 9#32), (9, 999#32)]).cell 5#32)) .user = .ok) ∧
    (check 1000#32 .user).code = some .kernelMemAccessDenied ∧
    (check ((userAt 5#32 [(5, 1000#32)]).cell 5#32) .user).code = some .kernelMemAccessDenied ∧
    (check ((userAt 5#32 [(5, 9#32), (9, -1#32)]).cell ((userAt 5#32 [(5, 9#32), (9, -1#32)]).cell 5#32)) .user).code =
      some .memoryOutOfBounds := by decide

/-- A sum at each end of the user region, one past it, and one that wraps below 0. -/
theorem witness_IndexedLoadsReadTheWrappedSum :
    check 5#32 .user = .ok ∧
    check ((userAt 5#32 [(5, 1000#32)]).cell 5#32 + (-1#32)) .user = .ok ∧
    check ((userAt 5#32 [(5, 4#32)]).cell 5#32 + (-4#32)) .user = .ok ∧
    check ((userAt 5#32 []).sp + (-1#32)) .user = .ok ∧
    (check ((userAt 5#32 [(5, 999#32)]).cell 5#32 + 1#32) .user).code = some .kernelMemAccessDenied ∧
    (check ((userAt 5#32 [(5, 0x7FFFFFFF#32)]).cell 5#32 + 1#32) .user).code = some .memoryOutOfBounds ∧
    (check ((userAt 5#32 []).sp + 0#32) .user).code = some .kernelMemAccessDenied := by decide

theorem witness_StoreWritesTheCell :
    Memory.wf (userAt 5#32 [(5, 999#32)]).mem = true ∧ check (userAt 5#32 [(5, 999#32)]).pc .user = .ok ∧
    check ((userAt 5#32 [(5, 999#32)]).cell 5#32) .user = .ok ∧ (check 1000#32 .user).code = some .kernelMemAccessDenied ∧
    (check ((userAt 5#32 [(5, 1000#32)]).cell 5#32) .user).code = some .kernelMemAccessDenied := by decide

theorem witness_PutEmitsOnPortsOneAndTwo :
    check 5#32 .user = .ok ∧ (userAt 5#32 [(5, 1#32)]).cell 5#32 = 1#32 ∧ (userAt 5#32 [(5, 2#32)]).cell 5#32 = 2#32 ∧
    ((userAt 5#32 [(5, 3#32)]).cell 5#32 ≠ 1#32 ∧ (userAt 5#32 [(5, 3#32)]).cell 5#32 ≠ 2#32) ∧
    ((userAt 5#32 []).cell 5#32 ≠ 1#32 ∧ (userAt 5#32 []).cell 5#32 ≠ 2#32) ∧
    (check (-1#32) .user).code = some .memoryOutOfBounds := by decide

theorem witness_JumpsGoToTheOperand :
    check (userAt 999#32 []).pc (userAt 999#32 []).mode = .ok ∧ check (kernelAt 1000#32 []).pc (kernelAt 1000#32 []).mode = .ok := by
  decide

/-- The push beside the operand cell, and the push onto it. -/
theorem witness_JumpReturnPushesThenJumps :
    Memory.wf (userAt 5#32 [(5, 500#32)]).mem = true ∧ check ((userAt 5#32 [(5, 500#32)]).sp - 1#32) .user = .ok ∧
    check (userAt 5#32 [(5, 500#32)]).pc .user = .ok ∧
    check ({ userAt 5#32 [(5, 500#32)] with sp := 6#32 }.sp - 1#32) .user = .ok ∧
    { userAt 5#32 [(5, 500#32)] with sp := 6#32 }.sp - 1#32 = 5#32 := by decide

theorem witness_StackInstructionsComplete :
    check { userAt 5#32 [] with sp := 999#32 }.sp .user = .ok ∧ check ((userAt 5#32 []).sp - 1#32) .user = .ok := by decide

theorem witness_RefusedStackAccessHalts :
    (check (userAt 5#32 []).sp .user).code = some .kernelMemAccessDenied ∧
    (check ({ userAt 5#32 [] with sp := 0#32 }.sp - 1#32) .user).code = some .memoryOutOfBounds ∧
    check ((userAt 1000#32 []).sp - 1#32) .user = .ok ∧
    (check (userAt 1000#32 []).pc .user).code = some .kernelMemAccessDenied := by decide

theorem witness_RefusedOperandFetchHalts :
    Instr.format .store = .oi ∧ Instr.store ≠ .jumpReturn ∧
    (check (userAt 1000#32 []).pc (userAt 1000#32 []).mode).code = some .kernelMemAccessDenied := by decide

/-- The highest and the lowest kernel stack that has room for a frame. -/
theorem witness_SyscallEntersTheHandler :
    Memory.wf (userAt 3#32 [(2, 29#32)]).mem = true ∧ (userAt 3#32 [(2, 29#32)]).mode = .user ∧
    (userAt 3#32 [(2, 29#32)]).ie = true ∧ frameFits (userAt 3#32 [(2, 29#32)]).ksp = true ∧
    frameFits 1005#32 = true ∧ frameFits 1004#32 = false ∧ frameFits 2001#32 = false := by decide

theorem witness_InterruptsAreDroppedWithoutTrace :
    (kernelAt 1500#32 []).mode = .kernel ∧ { userAt 3#32 [] with ie := false }.ie = false := by decide

theorem witness_BadKernelStackPointerHaltsTheEntry :
    (userAt 3#32 []).mode = .user ∧ (userAt 3#32 []).ie = true ∧
    (check ({ userAt 3#32 [] with ksp := 2001#32 }.ksp - 1#32) .kernel).code = some .memoryOutOfBounds ∧
    (check ({ userAt 3#32 [] with ksp := 1000#32 }.ksp - 1#32) .kernel).code = some .userMemAccessDenied := by decide

theorem witness_SysreturnRestoresTheFrame :
    frameReadable (kernelAt 1508#32 []).sp (kernelAt 1508#32 []).mode = true ∧ frameReadable 1000#32 .kernel = true ∧
    frameReadable 995#32 .user = true ∧ (check 2000#32 .kernel).code = some .memoryOutOfBounds ∧
    (check 1000#32 .user).code = some .kernelMemAccessDenied := by decide

/-! ### Frames and pairs -/

theorem witness_StoringInstructionsChangeOneCell :
    (∃ t, exec .store { userAt 5#32 [(5, 10#32)] with ac := 7#32 } = .next t ∧ t.mem = [(5, 10#32), (10, 7#32)]) ∧
    (∃ t, exec .push { userAt 5#32 [] with ac := 7#32 } = .next t ∧ t.mem = [(999, 7#32)]) ∧
    ∃ t, exec .jumpReturn (userAt 5#32 [(5, 10#32)]) = .next t ∧ t.mem = [(5, 10#32), (999, 6#32)] :=
  ⟨⟨_, rfl, rfl⟩, ⟨_, rfl, rfl⟩, _, rfl, rfl⟩

theorem witness_OtherInstructionsLeaveTheCells :
    (∃ t, exec .syscall (userAt 3#32 []) = .next t ∧ t.mem = [(1999, 3#32)]) ∧
    Instr.pop ∉ [Instr.store, .push, .jumpReturn, .syscall] ∧
    ∃ t, exec .pop { userAt 3#32 [] with sp := 999#32 } = .next t ∧ t.run = .running :=
  ⟨⟨_, rfl, rfl⟩, by decide, _, rfl, rfl⟩

theorem witness_RegistersChangeOnlyByTheirWriters :
    ∃ t, exec .incx (userAt 3#32 []) = .next t ∧ t.x = 1#32 ∧
      Instr.incx ∉ [Instr.copyToY, .sysreturn] := ⟨_, rfl, rfl, by decide⟩

theorem witness_ControlStateChangesOnlyByEntryAndReturn :
    ∃ t, exec .copyToSp (userAt 3#32 []) = .next t ∧ t.sp = 0#32 ∧
      Instr.copyToSp ∉ [Instr.syscall, .sysreturn] := ⟨_, rfl, rfl, by decide⟩

theorem witness_TransactionsFollowTheTable :
    (userAt 5#32 [(5, 10#32)]).run = .running ∧
    ∃ t, exec .loadAddr (userAt 5#32 [(5, 10#32)]) = .next t ∧ t.run = .running ∧ t.bus = [.read 5#32, .read 10#32] :=
  ⟨rfl, _, rfl, rfl, rfl⟩

theorem witness_PopUndoesPush :
    Memory.wf (userAt 5#32 []).mem = true ∧ check ((userAt 5#32 []).sp - 1#32) (userAt 5#32 []).mode = .ok := by decide

theorem witness_ReturnUndoesJumpReturn :
    Memory.wf (userAt 5#32 [(5, 500#32)]).mem = true ∧
    check ((userAt 5#32 [(5, 500#32)]).sp - 1#32) (userAt 5#32 [(5, 500#32)]).mode = .ok ∧
    check (userAt 5#32 [(5, 500#32)]).pc (userAt 5#32 [(5, 500#32)]).mode = .ok := by decide

theorem witness_SysreturnResumesAfterSyscall :
    Memory.wf (userAt 3#32 [(2, 29#32)]).mem = true ∧ (userAt 3#32 [(2, 29#32)]).mode = .user ∧
    (userAt 3#32 [(2, 29#32)]).ie = true ∧ frameFits { userAt 3#32 [(2, 29#32)] with ksp := 1005#32 }.ksp = true := by
  decide

/-- STORE at 4 writes END over the cell that is executed next. -/
theorem witness_NextFetchSeesTheStoredOpcode :
    Memory.wf (userAt 5#32 [(4, 7#32), (5, 6#32)]).mem = true ∧
    ∃ t, exec .store { userAt 5#32 [(4, 7#32), (5, 6#32)] with ac := 50#32 } = .next t ∧ t.run = .running ∧
      t.pc = (userAt 5#32 [(4, 7#32), (5, 6#32)]).cell 5#32 := ⟨by decide, _, rfl, rfl, rfl⟩

/-! ### Timer -/

theorem witness_TimerTickInUserModeIsTaken :
    ({ userAt 3#32 [] with counter := 999 }.run = .running ∧ { userAt 3#32 [] with counter := 999 }.mode = .user ∧
      { userAt 3#32 [] with counter := 999 }.ie = true ∧ frameFits { userAt 3#32 [] with counter := 999 }.ksp = true ∧
      ({ userAt 3#32 [] with counter := 999 }.counter + 1) % 1000 = 0) ∧
    ({ kernelAt 1508#32 [] with counter := 1999 }.run = .running ∧
      { kernelAt 1508#32 [] with counter := 1999 }.mode = .kernel ∧
      frameReadable { kernelAt 1508#32 [] with counter := 1999 }.sp .kernel = true ∧
      ({ kernelAt 1508#32 [] with counter := 1999 }.counter + 1) %
        { kernelAt 1508#32 [] with counter := 1999 }.timerValue = 0) := by decide

theorem witness_TimerTicksInKernelModeAreLost :
    ({ kernelAt 1500#32 [] with counter := 999 }.run = .running ∧ (kernelAt 1500#32 []).mode = .kernel) ∧
    (userAt 3#32 []).mode = .user ∧ (userAt 3#32 []).ie = true ∧
    ∃ u, exec .syscall (userAt 3#32 []) = .next u ∧ u.run = .running := ⟨by decide, rfl, rfl, _, rfl, rfl⟩

/-! ### The whole machine -/

theorem witness_StepKeepsTheMachineLegal :
    State.legal (kernelAt 1507#32 [(1507, 30#32), (1999, 3#32)]) = true ∧
    ∃ t, step (kernelAt 1507#32 [(1507, 30#32), (1999, 3#32)]) = .next t ∧ t.mode = .user := ⟨by decide, _, rfl, rfl⟩

theorem witness_LaunchIsLegal :
    Memory.wf { Launch.default with image := [(0, 50#32)], timerValue := 1 }.image = true ∧
    0 < { Launch.default with image := [(0, 50#32)], timerValue := 1 }.timerValue := by decide

theorem witness_CellsChangeOnlyByTheRequestsSent :
    ∃ t, step { userAt 4#32 [(4, 27#32)] with ac := 7#32 } = .next t ∧
      t.bus = [.read 4#32, .write 999#32 7#32] := ⟨_, rfl, rfl⟩

/-- Two handler states that differ in cell 10 alone. -/
theorem witness_HandlerLearnsNothingOfUserMemory :
    Memory.wf (kernelAt 1500#32 [(10, 1#32), (1500, 14#32)]).mem = true ∧
    Memory.wf (kernelAt 1500#32 [(1500, 14#32)]).mem = true ∧
    (kernelAt 1500#32 [(10, 1#32), (1500, 14#32)]).mode = .kernel ∧
    State.agreeAboveUser (kernelAt 1500#32 [(10, 1#32), (1500, 14#32)]) (kernelAt 1500#32 [(1500, 14#32)]) := by
  refine ⟨by decide, by decide, rfl, rfl, fun k hk => ?_⟩
  simp only [Config.userLimit] at hk
  simp [kernelAt, Memory.read, show (10 : Nat) ≠ k by omega]

theorem witness_HandlerChangesNoUserCell :
    (kernelAt 1500#32 [(1500, 27#32)]).mode = .kernel ∧
    ∃ t, step { kernelAt 1500#32 [(1500, 27#32)] with ac := 7#32 } = .next t ∧ t.mem = [(1500, 27#32), (1994, 7#32)] :=
  ⟨rfl, _, rfl, rfl⟩

theorem witness_UserStepChangesKernelCellsOnlyInTheFrame :
    (userAt 2#32 [(2, 29#32)]).mode = .user ∧ ∃ t, step (userAt 2#32 [(2, 29#32)]) = .next t ∧
      Memory.read t.mem 1999 = 3#32 ∧ Memory.read (userAt 2#32 [(2, 29#32)]).mem 1999 = 0#32 := ⟨rfl, _, rfl, rfl, rfl⟩

/-- An entry by SYSCALL, and one by the timer. -/
theorem witness_KernelModeIsEnteredOnlyAtAHandler :
    (∃ t, step (userAt 2#32 [(2, 29#32)]) = .next t ∧ t.mode = .kernel ∧ t.run = .running ∧ t.pc = 1500#32) ∧
    ∃ t, step { userAt 2#32 [(2, 14#32)] with counter := 999 } = .next t ∧ t.mode = .kernel ∧ t.run = .running ∧
      t.pc = 1000#32 := ⟨⟨_, rfl, rfl, rfl, rfl⟩, _, rfl, rfl, rfl, rfl⟩

theorem witness_KernelModeIsLeftOnlyBySysreturn :
    (kernelAt 1507#32 [(1507, 30#32)]).mode = .kernel ∧
    ∃ t, step (kernelAt 1507#32 [(1507, 30#32)]) = .next t ∧ t.mode = .user := ⟨rfl, _, rfl, rfl⟩

theorem witness_OutputGrowsOnlyByPut :
    ∃ t, step { userAt 2#32 [(2, 9#32), (3, 2#32)] with ac := 65#32 } = .next t ∧
      t.output = [⟨.character, 65#32⟩] := ⟨_, rfl, rfl⟩

/-! ### The program text -/

theorem witness_ProgramTextWritesNoNegativeCell :
    Memory.wf [(7, -1#32)] = true ∧ loadLines 1999 [(7, -1#32)] [['5']] = some [(7, -1#32), (1999, 5#32)] := by decide

end Sys2Proof.Tests
end

section
/-! PROOFS. The stack manager's `PushValue` (10_state.md R26). -/

namespace Sys2Proof.Machine

theorem pushValue_ok {v : Word} {s : State} (h : check (s.sp - 1#32) s.mode = .ok) :
    pushValue v s =
      .done () { s with
        sp := s.sp - 1#32, mem := Memory.write s.mem (s.sp - 1#32).toNat v,
        bus := s.bus ++ [.write (s.sp - 1#32) v] } := by
  simp [pushValue_eq, h]

theorem pushValue_refused {v : Word} {s : State} {code : ExitCode}
    (h : (check (s.sp - 1#32) s.mode).code = some code) :
    pushValue v s = .raised { s with sp := s.sp - 1#32, run := .halted code } := by
  simp [pushValue_eq, h, raiseFatal]

/-- SP at reset is the end of the user region (R30), so the cell below it is 999. -/
theorem launch_sp_sub_one (l : Launch) : (State.launch l).sp - 1#32 = 999#32 :=
  (by decide : Config.userSpReset - 1#32 = 999#32)

/-- The cell below SP at reset is a user cell, and the machine starts in User mode (R30). -/
theorem check_launch_sp_sub_one (l : Launch) :
    check ((State.launch l).sp - 1#32) (State.launch l).mode = .ok :=
  (by decide : check (Config.userSpReset - 1#32) .user = .ok)

/-- Settles O9: the first two clauses are the two outcomes of the write below SP; the third is the first of them at
reset. -/
theorem pushValueWritesBelowTheStackPointer : Obligations.PushValueWritesBelowTheStackPointer := by
  refine ⟨fun _ _ hok => pushValue_ok hok, fun _ _ _ hcode => pushValue_refused hcode, fun v l => ?_⟩
  calc
    (pushValue v (State.launch l)).state.bus
        = (State.launch l).bus ++ [.write ((State.launch l).sp - 1#32) v] := by
          rw [pushValue_ok (check_launch_sp_sub_one l), Res.state_done]
    _ = [.write 999#32 v] := by rw [launch_sp_sub_one]; rfl

end Sys2Proof.Machine
end

section
/-! PROOFS. How the Memory Store serves each kind of request (20_memory.md R47). -/

namespace Sys2Proof.Machine

theorem serve_read_of_inBounds {m : Memory} {a : Word} (h : inBounds a = true) :
    serve m (.read a) = (⟨.success, Memory.read m a.toNat⟩, m) := if_pos h

theorem serve_read_of_not_inBounds {m : Memory} {a : Word} (h : ¬ inBounds a = true) :
    serve m (.read a) = (⟨.readFailure, Config.unlistedCell⟩, m) := if_neg h

theorem serve_write_of_inBounds {m : Memory} {a v : Word} (h : inBounds a = true) :
    serve m (.write a v) = (⟨.success, Config.unlistedCell⟩, Memory.write m a.toNat v) := if_pos h

theorem serve_write_of_not_inBounds {m : Memory} {a v : Word} (h : ¬ inBounds a = true) :
    serve m (.write a v) = (⟨.writeFailure, Config.unlistedCell⟩, m) := if_neg h

theorem serve_otherKind (m : Memory) :
    serve m .otherKind = (⟨.invalidMemAction, Config.unlistedCell⟩, m) := rfl

/-- A READ has no side effect on the cells, whichever way the bounds check goes. -/
theorem serve_read_mem (m : Memory) (a : Word) : (serve m (.read a)).2 = m := by
  by_cases h : inBounds a = true
  · rw [serve_read_of_inBounds h]
  · rw [serve_read_of_not_inBounds h]

/-- The cells after an accepted WRITE. The canonical form is needed: a write of what an unlisted cell reads as only
drops the first entry for its address. -/
theorem read_serve_write {m : Memory} {a v : Word} (hwf : Memory.wf m = true) (h : inBounds a = true) (k : Nat) :
    Memory.read (serve m (.write a v)).2 k = if k = a.toNat then v else Memory.read m k := by
  rw [serve_write_of_inBounds h, Memory.read_write hwf]

/-- Settles O5: `inBounds` is the bounds check of the statement, and each kind of request has one equation on either
side of it. -/
theorem memoryStoreServesRequests : Obligations.MemoryStoreServesRequests := by
  intro m a v hwf
  refine ⟨fun hin => ?inside, fun hout => ?outside, serve_read_mem m a, ?otherKind⟩
  case inside =>
    have hb : inBounds a = true := inBounds_iff.2 hin
    refine ⟨?_, ?_, read_serve_write hwf hb⟩
    · rw [serve_read_of_inBounds hb]
    · rw [serve_write_of_inBounds hb]
  case outside =>
    have hb : ¬ inBounds a = true := fun hb => hout (inBounds_iff.1 hb)
    rw [serve_read_of_not_inBounds hb, serve_write_of_not_inBounds hb]
    exact ⟨rfl, rfl, rfl⟩
  case otherKind =>
    rw [serve_otherKind]
    exact ⟨rfl, rfl⟩

end Sys2Proof.Machine
end

section
/-! PROOFS. The fetch (40_execute_loop.md R71), let pass and refused with each of the three verdicts of R43. -/

namespace Sys2Proof.Machine

theorem check_outOfBounds {a : Word} {m : Mode} (h : a.toInt < 0 ∨ 2000 ≤ a.toInt) : check a m = .outOfBounds := by
  rw [check_eq, if_pos h]

theorem check_kernelDenied {a : Word} (hlo : 1000 ≤ a.toInt) (hhi : a.toInt < 2000) :
    check a .user = .kernelDenied := by
  rw [check_eq, if_neg (by omega), if_pos ⟨hlo, rfl⟩]

theorem check_userDenied {a : Word} (hlo : 0 ≤ a.toInt) (hhi : a.toInt < 1000) :
    check a .kernel = .userDenied := by
  rw [check_eq, if_neg (by omega), if_neg (by omega), if_pos ⟨hhi, rfl⟩]

theorem fetch_ok {s : State} (h : check s.pc s.mode = .ok) : fetch s = .done () s.fetched := by
  rw [fetch_eq, h, Verdict.code_ok]

theorem fetch_refused {s : State} {code : ExitCode} (h : (check s.pc s.mode).code = some code) :
    fetch s = .raised (raiseFatal code s) := by
  rw [fetch_eq, h]

/-- Settles O12: the fetch has one outcome per verdict on PC, and each clause names the verdict by PC's range and the
mode. -/
theorem fetchReadsTheOpcodeCell : Obligations.FetchReadsTheOpcodeCell := by
  intro s
  refine ⟨fetch_ok, fun hout => ?outOfBounds, fun ⟨hlo, hhi, hmode⟩ => ?kernelDenied,
    fun ⟨hlo, hhi, hmode⟩ => ?userDenied⟩
  case outOfBounds =>
    have hcheck : check s.pc s.mode = .outOfBounds := check_outOfBounds hout
    exact fetch_refused (by rw [hcheck, Verdict.code])
  case kernelDenied =>
    have hcheck : check s.pc s.mode = .kernelDenied := hmode ▸ check_kernelDenied hlo hhi
    exact fetch_refused (by rw [hcheck, Verdict.code])
  case userDenied =>
    have hcheck : check s.pc s.mode = .userDenied := hmode ▸ check_userDenied hlo hhi
    exact fetch_refused (by rw [hcheck, Verdict.code])

end Sys2Proof.Machine
end

section
/-! PROOFS. The operand cell (30_encoding.md R60, 40_execute_loop.md R73), and the loads and the store whose operand is
the value or its address (41_load_store.md R80, R81, R86). -/

namespace Sys2Proof.Machine

/-! ### The two cells of an instruction with an operand -/

theorem encode_operand (i : Instr) (v : Word) : encode ⟨i, some v⟩ = [encodeOpcode i, v] := rfl

theorem decode_operand (i : Instr) (hi : i.format = .oi) (v : Word) :
    decode [encodeOpcode i, v] = .ok (⟨i, some v⟩, []) := by
  simp only [decode, decodeOpcode_encodeOpcode, hi]

/-! ### Going on after the operand fetch -/

/-- What `FetchOperand` leaves when it does not raise (R73): PC is past the operand cell. -/
def State.operandFetched (s : State) : State := { s with pc := s.pc + 1#32, bus := s.bus ++ [.read s.pc] }

/-- The operand is whatever the cell at PC holds: nothing is asked of its value (R73). -/
theorem fetchOperand_andThen_ok {s : State} (h : check s.pc s.mode = .ok) (f : Word → State → Res Unit) :
    (fetchOperand s).andThen f = f (s.cell s.pc) s.operandFetched := by
  rw [fetchOperand_eq, h, Verdict.code_ok, Res.andThen_done, State.operandFetched]

/-- A refused operand fetch ends the instruction, whatever would have followed it, and PC stays (R73, R133). -/
theorem fetchOperand_andThen_refused {s : State} {code : ExitCode} (h : (check s.pc s.mode).code = some code)
    (f : Word → State → Res Unit) : (fetchOperand s).andThen f = .raised { s with run := .halted code } := by
  rw [fetchOperand_eq, h, Res.andThen_raised, raiseFatal]

/-! ### LOAD_VAL -/

theorem exec_loadVal (s : State) :
    exec .loadVal s = settle ((fetchOperand s).andThen fun v t => .done () { t with ac := v }) := rfl

/-- Settles O23: the operand fetch is the only thing LOAD_VAL does that can be refused. -/
theorem loadValLoadsTheOperand : Obligations.LoadValLoadsTheOperand := by
  refine ⟨fun v => ⟨encode_operand .loadVal v, decode_operand .loadVal rfl v⟩, fun s hpc => ?loaded,
    fun s code hpc => ?refused⟩
  case loaded => rw [exec_loadVal, fetchOperand_andThen_ok hpc, settle_done, State.operandFetched]
  case refused => rw [exec_loadVal, fetchOperand_andThen_refused hpc, settle_raised]

/-! ### LOAD_ADDR -/

theorem exec_loadAddr (s : State) :
    exec .loadAddr s =
      settle ((fetchOperand s).andThen fun a t => (memRead a t).andThen fun v u => .done () { u with ac := v }) := rfl

theorem exec_loadAddr_ok {s : State} (hpc : check s.pc s.mode = .ok) (ha : check (s.cell s.pc) s.mode = .ok) :
    exec .loadAddr s = .next { s with
      ac := s.cell (s.cell s.pc), pc := s.pc + 1#32, bus := s.bus ++ [.read s.pc, .read (s.cell s.pc)] } := by
  rw [exec_loadAddr, fetchOperand_andThen_ok hpc, memRead_ok (s := s.operandFetched) ha, Res.andThen_done, settle_done]
  simp [State.operandFetched, State.record, State.cell]

theorem exec_loadAddr_operand_refused {s : State} {code : ExitCode} (hpc : (check s.pc s.mode).code = some code) :
    exec .loadAddr s = .next { s with run := .halted code } := by
  rw [exec_loadAddr, fetchOperand_andThen_refused hpc, settle_raised]

theorem exec_loadAddr_read_refused {s : State} {code : ExitCode} (hpc : check s.pc s.mode = .ok)
    (ha : (check (s.cell s.pc) s.mode).code = some code) :
    exec .loadAddr s = .next { s with pc := s.pc + 1#32, bus := s.bus ++ [.read s.pc], run := .halted code } := by
  rw [exec_loadAddr, fetchOperand_andThen_ok hpc, memRead_refused (s := s.operandFetched) ha, Res.andThen_raised,
    settle_raised, raiseFatal, State.operandFetched]

/-- The two addresses the spec names, one past the last cell and one below the first, are out of bounds in either mode
(R43, R81). -/
theorem check_end_addresses {a : Word} (h : a = 2000#32 ∨ a = -1#32) (m : Mode) : check a m = .outOfBounds := by
  apply check_outOfBounds
  rcases h with rfl | rfl
  · exact .inr (by decide)
  · exact .inl (by decide)

/-- Settles O24: the clauses are the outcomes of the two reads in their order; the last is the refused second read at an
address whose verdict does not depend on the mode. -/
theorem loadAddrLoadsTheCell : Obligations.LoadAddrLoadsTheCell := by
  refine ⟨fun a => ⟨encode_operand .loadAddr a, decode_operand .loadAddr rfl a⟩, fun s => exec_loadAddr_ok,
    fun s code => exec_loadAddr_operand_refused, fun s code => exec_loadAddr_read_refused, fun s hpc hend => ?_⟩
  have hcode : (check (s.cell s.pc) s.mode).code = some .memoryOutOfBounds := by
    rw [check_end_addresses hend, Verdict.code]
  exact exec_loadAddr_read_refused hpc hcode

/-! ### STORE -/

theorem exec_store (s : State) :
    exec .store s = settle ((fetchOperand s).andThen fun a t => memWrite a t.ac t) := rfl

theorem exec_store_ok {s : State} (hpc : check s.pc s.mode = .ok) (ha : check (s.cell s.pc) s.mode = .ok) :
    exec .store s = .next { s with
      pc := s.pc + 1#32, mem := Memory.write s.mem (s.cell s.pc).toNat s.ac,
      bus := s.bus ++ [.read s.pc, .write (s.cell s.pc) s.ac] } := by
  rw [exec_store, fetchOperand_andThen_ok hpc, memWrite_ok (s := s.operandFetched) ha, settle_done]
  simp [State.operandFetched]

theorem exec_store_operand_refused {s : State} {code : ExitCode} (hpc : (check s.pc s.mode).code = some code) :
    exec .store s = .next { s with run := .halted code } := by
  rw [exec_store, fetchOperand_andThen_refused hpc, settle_raised]

theorem exec_store_write_refused {s : State} {code : ExitCode} (hpc : check s.pc s.mode = .ok)
    (ha : (check (s.cell s.pc) s.mode).code = some code) :
    exec .store s = .next { s with pc := s.pc + 1#32, bus := s.bus ++ [.read s.pc], run := .halted code } := by
  rw [exec_store, fetchOperand_andThen_ok hpc, memWrite_refused (s := s.operandFetched) ha, settle_raised,
    raiseFatal, State.operandFetched]

/-- Settles O27: the new cells are one `Memory.write`, and on canonical cells `Memory.read_write` says what every read
of them gives, the written cell and all the others. -/
theorem storeWritesTheCell : Obligations.StoreWritesTheCell :=
  ⟨fun a => ⟨encode_operand .store a, decode_operand .store rfl a⟩,
    fun s hwf hpc ha => ⟨_, exec_store_ok hpc ha, fun k => Memory.read_write hwf (s.cell s.pc).toNat k s.ac⟩,
    fun _ _ => exec_store_operand_refused, fun _ _ => exec_store_write_refused⟩

end Sys2Proof.Machine
end

section
/-! PROOFS. The start-up handshake and the lost timer ticks (70_reset_and_hazards.md R151, R158). -/

namespace Sys2Proof.Machine

/-! ### Whether a step exists -/

theorem step_of_halted {s : State} {code : ExitCode} (h : s.run = .halted code) :
    step s = .fault (.halted code) := by
  rw [step, h]

/-- Whatever the opcode cell holds, decoding and executing it answers a next state: an illegal opcode is a halt (R123),
and so is an instruction that raises (R133). -/
theorem decodeAndExecute_next (s : State) : ∃ t, decodeAndExecute s = .next t := by
  unfold decodeAndExecute
  cases decodeOpcode s.ir with
  | error why => exact ⟨_, rfl⟩
  | ok i =>
    obtain ⟨u, hu⟩ := exec_next i s
    exact ⟨afterExecute u, by simp only [hu]⟩

/-- A running machine has a next state, whether its fetch is let pass or refused (R70, R24). -/
theorem step_next_of_running {s : State} (hrun : s.run = .running) (htimer : 0 < s.timerValue) :
    ∃ t, step s = .next t := by
  unfold step
  rw [hrun]
  simp only [htimer.ne', if_false]
  cases fetch s with
  | raised t => exact ⟨t, rfl⟩
  | done v t => exact decodeAndExecute_next t

/-! ### The start-up flag -/

theorem launch_run_of_load_failed {l : Launch} (h : l.loadOk = false) :
    (State.launch l).run = .halted .fileParseFailure := by
  simp [State.launch, h]

theorem launch_run_of_load_ok {l : Launch} (h : l.loadOk = true) : (State.launch l).run = .running := by
  simp [State.launch, h]

theorem exitCode_of_halted {s : State} {code : ExitCode} (h : s.run = .halted code) : s.exitCode = some code := by
  rw [State.exitCode, h]

theorem exitCode_of_running {s : State} (h : s.run = .running) : s.exitCode = none := by
  rw [State.exitCode, h]

/-- Settles O20: the flag decides the run state of the launched machine, and the run state decides the exit code and
whether a step exists. -/
theorem failedLoadHaltsBeforeAnyRequest : Obligations.FailedLoadHaltsBeforeAnyRequest := by
  refine fun l => ⟨fun hfail => ?failed, fun hok htimer => ?loaded⟩
  case failed =>
    have hrun := launch_run_of_load_failed hfail
    exact ⟨exitCode_of_halted hrun, rfl, step_of_halted hrun⟩
  case loaded =>
    have hrun := launch_run_of_load_ok hok
    exact ⟨exitCode_of_running hrun, step_next_of_running hrun htimer⟩

/-! ### The timer in Kernel mode -/

/-- In Kernel mode the trigger is called or not, and changes nothing either way (R137, R158). -/
theorem afterExecute_kernel {u : State} (hrun : u.run = .running) (hmode : u.mode = .kernel) :
    afterExecute u = { u with counter := u.counter + 1 } := by
  have hdropped : triggerInterrupt 1000#32 { u with counter := u.counter + 1 } =
      .done () { u with counter := u.counter + 1 } :=
    triggerInterrupt_dropped (by simp [hmode])
  rw [afterExecute_running hrun, hdropped, Res.state_done, ite_self]

/-- A taken interrupt ends in Kernel mode, also when it halts at a refused frame write: the mode is switched first
(R136). -/
theorem triggerInterrupt_taken_mode {s : State} (hmode : s.mode = .user) (hie : s.ie = true) (h : Word) :
    (triggerInterrupt h s).state.mode = .kernel := by
  rcases triggerInterrupt_cases h s with ⟨hdropped, _⟩ | ⟨_, _, _, htaken⟩ | ⟨_, _, n, _, code, _, hraised⟩
  · exact absurd ⟨hmode, hie⟩ hdropped
  · rw [htaken]; rfl
  · rw [hraised]; rfl

theorem exec_syscall_taken_mode {s u : State} (hmode : s.mode = .user) (hie : s.ie = true)
    (hexec : exec .syscall s = .next u) : u.mode = .kernel := by
  have hu : Host.Outcome.next (triggerInterrupt Config.syscallVector s).state = .next u := hexec
  cases hu
  exact triggerInterrupt_taken_mode hmode hie _

/-- Settles O50: the tick is dropped because the mode is Kernel, and a taken SYSCALL has switched to it before its own
tick is looked at. -/
theorem timerTicksInKernelModeAreLost : Obligations.TimerTicksInKernelModeAreLost :=
  ⟨fun _ hrun hmode => afterExecute_kernel hrun hmode,
    fun _ _ hmode hie hexec hrun => afterExecute_kernel hrun (exec_syscall_taken_mode hmode hie hexec)⟩

end Sys2Proof.Machine
end

section
/-! PROOFS. The encoding (30_encoding.md R60 to R65): decode and encode are inverse on well-formed instructions, and
the decoder rejects every cell outside the opcode map. -/

namespace Sys2Proof

/-! ### One instruction -/

/-- An instruction is well formed in one of two ways, by its format (R60). -/
theorem Code.wellFormed_iff (c : Code) :
    c.wellFormed = true ↔
      (c.instr.format = .o ∧ c.operand = none) ∨ (c.instr.format = .oi ∧ ∃ v, c.operand = some v) := by
  obtain ⟨i, operand⟩ := c
  cases hf : i.format <;> cases operand <;>
    simp [Code.wellFormed, Code.operandPresent, Code.operandAbsent, hf]

theorem decode_encode_append {c : Code} (hc : c.wellFormed = true) (rest : List Word) :
    decode (encode c ++ rest) = .ok (c, rest) := by
  obtain ⟨i, operand⟩ := c
  rcases (Code.wellFormed_iff _).1 hc with ⟨hf, rfl⟩ | ⟨hf, v, rfl⟩ <;>
    simp only at hf <;> simp [encode, decode, hf]

/-- The cells that a decoded instruction came from are its encoding, and it is well formed: the operand cell is taken
exactly when the format has one. -/
theorem encode_of_decode {ws rest : List Word} {c : Code} (h : decode ws = .ok (c, rest)) :
    c.wellFormed = true ∧ ws = encode c ++ rest := by
  cases ws with
  | nil => cases h
  | cons cell tail =>
    cases hd : decodeOpcode cell with
    | error why => simp [decode, hd] at h
    | ok i =>
      have hcell : cell = encodeOpcode i := decodeOpcode_ok_iff.1 hd
      cases hf : i.format with
      | o =>
        simp only [decode, hd, hf] at h
        cases h
        exact ⟨(Code.wellFormed_iff _).2 (.inl ⟨hf, rfl⟩), by simp [encode, hcell]⟩
      | oi =>
        cases tail with
        | nil => simp [decode, hd, hf] at h
        | cons v rest' =>
          simp only [decode, hd, hf] at h
          cases h
          exact ⟨(Code.wellFormed_iff _).2 (.inr ⟨hf, v, rfl⟩), by simp [encode, hcell]⟩

theorem decode_ok_iff {ws rest : List Word} {c : Code} :
    decode ws = .ok (c, rest) ↔ c.wellFormed = true ∧ ws = encode c ++ rest :=
  ⟨encode_of_decode, fun ⟨hc, hws⟩ => hws ▸ decode_encode_append hc rest⟩

/-! ### A program -/

theorem decodeProgram_encode_append {c : Code} (hc : c.wellFormed = true) {ws : List Word} {cs : List Code}
    (h : decodeProgram ws = .ok cs) : decodeProgram (encode c ++ ws) = .ok (c :: cs) := by
  obtain ⟨i, operand⟩ := c
  rcases (Code.wellFormed_iff _).1 hc with ⟨hf, rfl⟩ | ⟨hf, v, rfl⟩ <;>
    simp only at hf <;> simp [encode, decodeProgram, hf, h]

theorem decodeProgram_encodeProgram {cs : List Code} (hcs : ∀ c ∈ cs, c.wellFormed = true) :
    decodeProgram (encodeProgram cs) = .ok cs := by
  induction cs with
  | nil => rfl
  | cons c cs ih =>
    rw [List.forall_mem_cons] at hcs
    exact decodeProgram_encode_append hcs.1 (ih hcs.2)

/-- A program that decodes from some cells starts with the instruction that decodes from them. -/
theorem decodeProgram_cons_ok {cell : Word} {tail : List Word} {cs : List Code}
    (h : decodeProgram (cell :: tail) = .ok cs) :
    ∃ c rest cs', decode (cell :: tail) = .ok (c, rest) ∧ decodeProgram rest = .ok cs' ∧ cs = c :: cs' := by
  cases hd : decodeOpcode cell with
  | error why => simp [decodeProgram, hd] at h
  | ok i =>
    cases hf : i.format with
    | o =>
      simp only [decodeProgram, hd, hf] at h
      cases hrest : decodeProgram tail with
      | error why => simp [hrest] at h
      | ok cs' =>
        rw [hrest] at h
        cases h
        exact ⟨_, _, cs', by simp only [decode, hd, hf], hrest, rfl⟩
    | oi =>
      cases tail with
      | nil => simp [decodeProgram, hd, hf] at h
      | cons v rest' =>
        simp only [decodeProgram, hd, hf] at h
        cases hrest : decodeProgram rest' with
        | error why => simp [hrest] at h
        | ok cs' =>
          rw [hrest] at h
          cases h
          exact ⟨_, _, cs', by simp only [decode, hd, hf], hrest, rfl⟩

/-- By induction over the program: each of its instructions came from its own encoding. -/
theorem encodeProgram_of_decodeProgram {ws : List Word} {cs : List Code} (h : decodeProgram ws = .ok cs) :
    (∀ c ∈ cs, c.wellFormed = true) ∧ encodeProgram cs = ws := by
  induction cs generalizing ws with
  | nil =>
    cases ws with
    | nil => exact ⟨nofun, rfl⟩
    | cons cell tail =>
      obtain ⟨c, rest, cs', _, _, hcs⟩ := decodeProgram_cons_ok h
      cases hcs
  | cons c cs ih =>
    cases ws with
    | nil => cases h
    | cons cell tail =>
      obtain ⟨c', rest, cs', hdecode, hrest, hcs⟩ := decodeProgram_cons_ok h
      cases hcs
      obtain ⟨hc, hws⟩ := encode_of_decode hdecode
      obtain ⟨hall, hencode⟩ := ih hrest
      exact ⟨List.forall_mem_cons.2 ⟨hc, hall⟩, by rw [encodeProgram, hencode, hws]⟩

/-- Settles O1: each direction is an inverse law, for one instruction and, by induction, for a program. -/
theorem decodeAndEncodeAgree : Obligations.DecodeAndEncodeAgree :=
  ⟨fun _ _ _ => decode_ok_iff,
    fun _ _ => ⟨encodeProgram_of_decodeProgram, fun ⟨hcs, hws⟩ => hws ▸ decodeProgram_encodeProgram hcs⟩⟩

/-! ### The opcode map -/

theorem lookupOpcode_eq_none_iff {w : Word} {rows : List (Word × Instr)} :
    lookupOpcode w rows = none ↔ ∀ row ∈ rows, w ≠ row.1 := by
  induction rows with
  | nil => simp [lookupOpcode]
  | cons row rows ih =>
    obtain ⟨n, i⟩ := row
    by_cases hw : w = n <;> simp [lookupOpcode, hw, ih]

/-- A cell is illegal exactly when it is, as a signed number, none of the numbers of the map (R63, R64). -/
theorem decodeOpcode_illegal_iff {w : Word} :
    decodeOpcode w = .error (.illegalOpcode w) ↔ ∀ n ∈ opcodeTable.map fun row => row.1.toInt, w.toInt ≠ n := by
  have hlookup : decodeOpcode w = .error (.illegalOpcode w) ↔ lookupOpcode w opcodeTable = none := by
    unfold decodeOpcode
    cases lookupOpcode w opcodeTable <;> simp
  rw [hlookup, lookupOpcode_eq_none_iff]
  simp only [List.forall_mem_map, ne_eq, BitVec.toInt_inj]

theorem opcodeTable_numbers :
    (opcodeTable.map fun row => row.1.toInt) =
      [1, 2, 3, 4, 5, 6, 7, 8, 9, 10, 11, 12, 13, 14, 15, 16, 17, 18, 19, 20, 21, 22, 23, 24, 25, 26, 27, 28, 29, 30,
        50] := by decide

/-- Settles O2: the numbers of the map are 1 to 30 and 50, and the rest is arithmetic. -/
theorem decodeRejectsExactlyTheOtherCellValues : Obligations.DecodeRejectsExactlyTheOtherCellValues := by
  intro w
  rw [decodeOpcode_illegal_iff, opcodeTable_numbers]
  simp only [List.forall_mem_cons, List.not_mem_nil, false_implies, implies_true, and_true]
  omega

/-- Settles O3: each cell is the encoding of the instruction it is said to decode to. -/
theorem sampleOpcodeCellsDecode : Obligations.SampleOpcodeCellsDecode :=
  ⟨decodeOpcode_encodeOpcode .loadVal, decodeOpcode_encodeOpcode .loadAddr, decodeOpcode_encodeOpcode .store,
    decodeOpcode_encodeOpcode .put, decodeOpcode_encodeOpcode .addx, decodeOpcode_encodeOpcode .copyToX,
    decodeOpcode_encodeOpcode .jumpReturn, decodeOpcode_encodeOpcode .push, decodeOpcode_encodeOpcode .sysreturn,
    decodeOpcode_encodeOpcode .halt⟩

end Sys2Proof
end

section
/-! PROOFS. Access control and the cells (20_memory.md R43 to R57). -/

namespace Sys2Proof.Machine

/-! ### Access control -/

/-- The addresses and the mode that a verdict stands for (R43). -/
def Verdict.means (a : Word) (m : Mode) : Verdict → Prop
  | .outOfBounds => a.toInt < 0 ∨ 2000 ≤ a.toInt
  | .kernelDenied => 1000 ≤ a.toInt ∧ a.toInt < 2000 ∧ m = .user
  | .userDenied => 0 ≤ a.toInt ∧ a.toInt < 1000 ∧ m = .kernel
  | .ok => (0 ≤ a.toInt ∧ a.toInt < 1000 ∧ m = .user) ∨ (1000 ≤ a.toInt ∧ a.toInt < 2000 ∧ m = .kernel)

theorem check_means (a : Word) (m : Mode) : (check a m).means a m := by
  rw [check_eq]
  split_ifs with hout hkernel huser
  · exact hout
  · exact ⟨hkernel.1, by omega, hkernel.2⟩
  · exact ⟨by omega, huser⟩
  · cases m with
    | user => exact .inl ⟨by omega, by simpa using hkernel, rfl⟩
    | kernel => exact .inr ⟨by simpa using huser, by omega, rfl⟩

theorem check_user_ok {a : Word} (hlo : 0 ≤ a.toInt) (hhi : a.toInt < 1000) : check a .user = .ok := by
  rw [check_eq, if_neg (by omega), if_neg (by omega), if_neg nofun]

theorem check_kernel_ok {a : Word} (hlo : 1000 ≤ a.toInt) (hhi : a.toInt < 2000) : check a .kernel = .ok := by
  rw [check_eq, if_neg (by omega), if_neg nofun, if_neg (by omega)]

theorem check_of_means {a : Word} {m : Mode} : {v : Verdict} → v.means a m → check a m = v
  | .outOfBounds, hout => check_outOfBounds hout
  | .kernelDenied, ⟨hlo, hhi, hm⟩ => hm ▸ check_kernelDenied hlo hhi
  | .userDenied, ⟨hlo, hhi, hm⟩ => hm ▸ check_userDenied hlo hhi
  | .ok, .inl ⟨hlo, hhi, hm⟩ => hm ▸ check_user_ok hlo hhi
  | .ok, .inr ⟨hlo, hhi, hm⟩ => hm ▸ check_kernel_ok hlo hhi

/-- The meanings cover every address and exclude each other, so `Check` gives the one that applies. -/
theorem check_eq_iff {a : Word} {m : Mode} {v : Verdict} : check a m = v ↔ v.means a m :=
  ⟨fun h => h ▸ check_means a m, check_of_means⟩

theorem check_user_ok_iff {a : Word} : check a .user = .ok ↔ a.toNat < 1000 := by
  have hmeans : check a .user = .ok ↔ 0 ≤ a.toInt ∧ a.toInt < 1000 := by simp [check_eq_iff, Verdict.means]
  have hint := BitVec.toInt_eq_toNat_cond a
  rw [hmeans]
  split at hint <;> omega

theorem check_kernel_ok_iff {a : Word} : check a .kernel = .ok ↔ 1000 ≤ a.toNat ∧ a.toNat < 2000 := by
  have hmeans : check a .kernel = .ok ↔ 1000 ≤ a.toInt ∧ a.toInt < 2000 := by simp [check_eq_iff, Verdict.means]
  have hint := BitVec.toInt_eq_toNat_cond a
  rw [hmeans]
  split at hint <;> omega

theorem check_refused_code {a : Word} {m : Mode} (h : check a m ≠ .ok) : ∃ code, (check a m).code = some code :=
  Option.ne_none_iff_exists'.1 (mt Verdict.code_eq_none.1 h)

/-- Settles O4: the verdicts by their meanings; and a verdict that is not `Ok` has a code, with which either access is
refused. -/
theorem accessControlVerdicts : Obligations.AccessControlVerdicts := by
  refine ⟨fun a m => ⟨check_eq_iff, check_eq_iff, check_eq_iff, check_eq_iff⟩, fun a v s hrefused => ?_⟩
  obtain ⟨code, hcode⟩ := check_refused_code hrefused
  exact ⟨code, hcode, memRead_refused hcode, memWrite_refused hcode⟩

/-- Settles O6: the state after the write is explicit, and its cells read by the laws of `Memory.write`. -/
theorem readAfterWriteGivesTheValueWritten : Obligations.ReadAfterWriteGivesTheValueWritten := by
  intro a v s hwf hok
  refine ⟨_, memWrite_ok hok, ?_, fun k hk => Memory.read_write_ne hk⟩
  rw [memRead_ok (by exact hok), State.cell, Memory.read_write_eq hwf]

/-! ### Canonical cells -/

theorem Memory.wf_nil : Memory.wf [] = true := rfl

/-- By induction on how many addresses are taken over from the function: the next write is at an address that nothing
before it has written. -/
theorem Memory.ofFunction_spec (f : Nat → Word) (n : Nat) (hn : n ≤ Config.memSize) :
    Memory.wf (Memory.ofFunction f n) = true ∧ ∀ k < n, Memory.read (Memory.ofFunction f n) k = f k := by
  induction n with
  | zero => exact ⟨Memory.wf_nil, nofun⟩
  | succ n ih =>
    obtain ⟨hwf, hread⟩ := ih (Nat.le_of_succ_le hn)
    refine ⟨Memory.wf_write hwf hn, fun k hk => ?_⟩
    rw [Memory.ofFunction, Memory.read_write hwf]
    split
    · next hkn => rw [hkn]
    · next hkn => exact hread k (by omega)

/-- Settles O7: the image is the function taken over at all 2000 addresses. -/
theorem everyImageHasCanonicalCells : Obligations.EveryImageHasCanonicalCells :=
  fun f => Memory.ofFunction_spec f Config.memSize (Nat.le_refl _)

theorem Memory.read_cons_eq (a : Nat) (v : Word) (rest : Memory) : Memory.read ((a, v) :: rest) a = v := if_pos rfl

theorem Memory.read_cons_ne {a k : Nat} (h : a ≠ k) (v : Word) (rest : Memory) :
    Memory.read ((a, v) :: rest) k = Memory.read rest k := if_neg h

/-- A listed cell does not read as an unlisted one, so cells that read alike start no later. -/
theorem Memory.start_le_of_read_eq {lo b a : Nat} {v : Word} {rest n : Memory}
    (hm : Memory.wfFrom lo ((a, v) :: rest) = true) (hn : Memory.wfFrom b n = true)
    (h : Memory.read ((a, v) :: rest) a = Memory.read n a) : b ≤ a := by
  obtain ⟨_, _, hv, _⟩ := Memory.wfFrom_cons.1 hm
  by_contra hlt
  rw [Memory.read_cons_eq, Memory.read_below hn (by omega)] at h
  exact hv h

theorem Memory.not_read_eq_nil {lo a : Nat} {v : Word} {rest : Memory}
    (hm : Memory.wfFrom lo ((a, v) :: rest) = true) :
    Memory.read ((a, v) :: rest) a ≠ Memory.read [] a := by
  obtain ⟨_, _, hv, _⟩ := Memory.wfFrom_cons.1 hm
  rwa [Memory.read_cons_eq]

/-- By induction along both lists: their first entries agree, since each is where the other's reads first differ from
an unlisted cell. -/
theorem Memory.eq_of_read_eq {lo : Nat} {m n : Memory} (hm : Memory.wfFrom lo m = true)
    (hn : Memory.wfFrom lo n = true) (h : ∀ k, Memory.read m k = Memory.read n k) : m = n := by
  induction m generalizing lo n with
  | nil =>
    cases n with
    | nil => rfl
    | cons d n => exact absurd (h d.1).symm (Memory.not_read_eq_nil hn)
  | cons c m ih =>
    obtain ⟨a, v⟩ := c
    cases n with
    | nil => exact absurd (h a) (Memory.not_read_eq_nil hm)
    | cons d n =>
      obtain ⟨b, w⟩ := d
      obtain ⟨_, ha, hv, hmrest⟩ := Memory.wfFrom_cons.1 hm
      obtain ⟨_, hb, hw, hnrest⟩ := Memory.wfFrom_cons.1 hn
      have hba : b ≤ a :=
        Memory.start_le_of_read_eq hm (Memory.wfFrom_cons.2 ⟨Nat.le_refl b, hb, hw, hnrest⟩) (h a)
      have hab : a ≤ b :=
        Memory.start_le_of_read_eq hn (Memory.wfFrom_cons.2 ⟨Nat.le_refl a, ha, hv, hmrest⟩) (h b).symm
      obtain rfl : a = b := Nat.le_antisymm hab hba
      have hvw : v = w := by simpa [Memory.read_cons_eq] using h a
      have htail : m = n := ih hmrest hnrest fun k => by
        by_cases hk : a = k
        · rw [Memory.read_below hmrest (by omega), Memory.read_below hnrest (by omega)]
        · simpa [Memory.read_cons_ne hk] using h k
      rw [hvw, htail]

/-- Settles O8. -/
theorem canonicalCellsAreDeterminedByTheirReads : Obligations.CanonicalCellsAreDeterminedByTheirReads :=
  fun _ _ => Memory.eq_of_read_eq

/-! ### The program text -/

/-- Settles O60, by induction over the lines: only a line with a value writes, and what it writes is not negative. -/
theorem programTextWritesNoNegativeCell : Obligations.ProgramTextWritesNoNegativeCell := by
  intro start m n lines hwf hload
  induction lines generalizing start m with
  | nil =>
    cases hload
    exact ⟨hwf, fun k => .inl rfl⟩
  | cons line rest ih =>
    cases hline : lineMeaning line with
    | blank => exact ih _ _ hwf (loadLines_blank hline start m rest ▸ hload)
    | comment => exact ih _ _ hwf (loadLines_comment hline start m rest ▸ hload)
    | setCursor a => exact ih _ _ hwf (loadLines_setCursor hline start m rest ▸ hload)
    | malformed => cases loadLines_malformed hline start m rest ▸ hload
    | loadValue v =>
      rw [loadLines_loadValue hline] at hload
      split at hload
      · next hfits =>
        obtain ⟨hcursor, hv⟩ := hfits
        obtain ⟨hwf', hcells⟩ := ih _ _ (Memory.wf_write hwf hcursor) hload
        refine ⟨hwf', fun k => ?_⟩
        by_cases hk : k = start
        · right
          rcases hcells k with hkept | hnonneg
          · rw [hkept, hk, Memory.read_write_eq hwf, toInt_of_loadValue hv]
            exact Int.natCast_nonneg v
          · exact hnonneg
        · have hcell := hcells k
          rwa [Memory.read_write_ne hk] at hcell
      · cases hload

end Sys2Proof.Machine
end

section
/-! PROOFS. What each instruction does, once: the instructions on registers alone as the state they leave, the others as
the shared operations they run (41_load_store.md to 47_system.md). -/

namespace Sys2Proof.Machine

/-! ### Registers alone -/

theorem exec_addx (s : State) : exec .addx s = .next { s with ac := s.ac + s.x } := rfl

theorem exec_addy (s : State) : exec .addy s = .next { s with ac := s.ac + s.y } := rfl

theorem exec_subx (s : State) : exec .subx s = .next { s with ac := s.ac - s.x } := rfl

theorem exec_suby (s : State) : exec .suby s = .next { s with ac := s.ac - s.y } := rfl

theorem exec_incx (s : State) : exec .incx s = .next { s with x := s.x + 1#32 } := rfl

theorem exec_decx (s : State) : exec .decx s = .next { s with x := s.x - 1#32 } := rfl

theorem exec_copyToX (s : State) : exec .copyToX s = .next { s with x := s.ac } := rfl

theorem exec_copyFrX (s : State) : exec .copyFrX s = .next { s with ac := s.x } := rfl

theorem exec_copyToY (s : State) : exec .copyToY s = .next { s with y := s.ac } := rfl

theorem exec_copyFrY (s : State) : exec .copyFrY s = .next { s with ac := s.y } := rfl

theorem exec_copyToSp (s : State) : exec .copyToSp s = .next { s with sp := s.ac } := rfl

theorem exec_copyFrSp (s : State) : exec .copyFrSp s = .next { s with ac := s.sp } := rfl

theorem exec_get (s : State) : exec .get s = .next { s with ac := draw s, drawIndex := s.drawIndex + 1 } := rfl

theorem exec_halt (s : State) : exec .halt s = .next { s with run := .halted .success } := rfl

/-! ### By the shared operations -/

theorem exec_loadIndAddr (s : State) :
    exec .loadIndAddr s = settle ((fetchOperand s).andThen fun a t =>
      (memRead a t).andThen fun p u => (memRead p u).andThen fun v w => .done () { w with ac := v }) := rfl

theorem exec_loadIdxXAddr (s : State) :
    exec .loadIdxXAddr s = settle ((fetchOperand s).andThen fun b t =>
      (memRead (b + t.x) t).andThen fun v u => .done () { u with ac := v }) := rfl

theorem exec_loadIdxYAddr (s : State) :
    exec .loadIdxYAddr s = settle ((fetchOperand s).andThen fun b t =>
      (memRead (b + t.y) t).andThen fun v u => .done () { u with ac := v }) := rfl

theorem exec_loadSpx (s : State) :
    exec .loadSpx s = settle ((memRead (s.sp + s.x) s).andThen fun v t => .done () { t with ac := v }) := rfl

/-- What PUT does with its operand (R88). -/
def putOn (p : Word) (s : State) : Res Unit :=
  match portOf p with
  | some port => .done () (emit port s.ac s)
  | none => .raised (raiseFatal .invalidPortCall s)

theorem exec_put (s : State) : exec .put s = settle ((fetchOperand s).andThen putOn) := rfl

theorem exec_jump (s : State) :
    exec .jump s = settle ((peekOperand s).andThen fun a t => .done () { t with pc := a }) := rfl

theorem exec_jumpIfEq (s : State) :
    exec .jumpIfEq s = settle ((fetchOperand s).andThen fun a t =>
      .done () (if acIsZero t then { t with pc := a } else t)) := rfl

theorem exec_jumpIfNeq (s : State) :
    exec .jumpIfNeq s = settle ((fetchOperand s).andThen fun a t =>
      .done () (if acIsZero t then t else { t with pc := a })) := rfl

theorem exec_jumpReturn (s : State) :
    exec .jumpReturn s = settle ((pushValue (s.pc + 1#32) s).andThen fun _ t =>
      (peekOperand t).andThen fun a u => .done () { u with pc := a }) := rfl

theorem exec_ret (s : State) :
    exec .ret s = settle ((popValue s).andThen fun v t => .done () { t with pc := v }) := rfl

theorem exec_pop (s : State) :
    exec .pop s = settle ((popValue s).andThen fun v t => .done () { t with ac := v }) := rfl

theorem exec_push (s : State) : exec .push s = settle (pushValue s.ac s) := rfl

theorem exec_syscall (s : State) : exec .syscall s = settle (triggerInterrupt 1500#32 s) := rfl

theorem exec_sysreturn (s : State) : exec .sysreturn s = settle (returnFromInterrupt s) := rfl

/-! ### Going on after a read -/

theorem memRead_andThen_ok {a : Word} {s : State} (h : check a s.mode = .ok) (f : Word → State → Res Unit) :
    (memRead a s).andThen f = f (s.cell a) (s.record [.read a]) := by
  rw [memRead_ok h, Res.andThen_done]

theorem memRead_andThen_refused {a : Word} {s : State} {code : ExitCode} (h : (check a s.mode).code = some code)
    (f : Word → State → Res Unit) : (memRead a s).andThen f = .raised { s with run := .halted code } := by
  rw [memRead_refused h, Res.andThen_raised, raiseFatal]

theorem popValue_ok {s : State} (h : check s.sp s.mode = .ok) :
    popValue s = .done (s.cell s.sp) { s with sp := s.sp + 1#32, bus := s.bus ++ [.read s.sp] } := by
  rw [popValue_eq, h, Verdict.code_ok]

theorem popValue_refused {s : State} {code : ExitCode} (h : (check s.sp s.mode).code = some code) :
    popValue s = .raised { s with run := .halted code } := by
  simp [popValue_eq, h, raiseFatal]

end Sys2Proof.Machine
end

section
/-! PROOFS. The arithmetic, the copies, GET and END: they complete in every state (R87, R90 to R105, R122). -/

namespace Sys2Proof.Machine

/-- Settles O21. -/
theorem registerCopiesComplete : Obligations.RegisterCopiesComplete :=
  fun s => ⟨exec_copyToX s, exec_copyFrX s, exec_copyToY s, exec_copyFrY s, exec_copyToSp s, exec_copyFrSp s⟩

/-- The balanced remainder of the library is the `wrap` of the spec (R6). -/
theorem bmod_eq_wrap (z : Int) : z.bmod (2 ^ 32) = wrap z := by
  simp only [Int.bmod, wrap]
  split <;> omega

theorem toInt_add_eq_wrap (a b : Word) : (a + b).toInt = wrap (a.toInt + b.toInt) := by
  rw [BitVec.toInt_add, bmod_eq_wrap]

theorem toInt_sub_eq_wrap (a b : Word) : (a - b).toInt = wrap (a.toInt - b.toInt) := by
  rw [BitVec.toInt_sub, bmod_eq_wrap]

/-- Settles O22: the machine's sums and differences are the wrapped exact ones. -/
theorem arithmeticWrapsTheExactResult : Obligations.ArithmeticWrapsTheExactResult :=
  fun s =>
    ⟨⟨_, toInt_add_eq_wrap s.ac s.x, exec_addx s⟩, ⟨_, toInt_add_eq_wrap s.ac s.y, exec_addy s⟩,
      ⟨_, toInt_sub_eq_wrap s.ac s.x, exec_subx s⟩, ⟨_, toInt_sub_eq_wrap s.ac s.y, exec_suby s⟩,
      ⟨_, toInt_add_eq_wrap s.x 1#32, exec_incx s⟩, ⟨_, toInt_sub_eq_wrap s.x 1#32, exec_decx s⟩⟩

theorem toInt_draw (s : State) : (draw s).toInt = (Config.freeDraw s.drawIndex).val + 1 := by
  have hlt := (Config.freeDraw s.drawIndex).isLt
  rw [draw, toInt_of_loadValue (by simp only [maxLoadValue]; omega)]
  rfl

/-- Settles O28: a draw below 100, plus one. -/
theorem getDrawsFromOneToOneHundred : Obligations.GetDrawsFromOneToOneHundred := by
  intro s
  have hlt := (Config.freeDraw s.drawIndex).isLt
  refine ⟨exec_get s, ?_, ?_⟩ <;> rw [toInt_draw] <;> omega

/-- Settles O39: END halts, and nothing follows a halt. -/
theorem endHaltsWithSuccess : Obligations.EndHaltsWithSuccess :=
  fun s => ⟨exec_halt s, afterExecute_halted rfl⟩

end Sys2Proof.Machine
end

section
/-! PROOFS. The loads through an address, PUT, and the refused operand fetch (R73, R82 to R85, R88). -/

namespace Sys2Proof.Machine

/-- Settles O25: the clauses are the outcomes of the three reads, in their order. -/
theorem loadIndAddrFollowsThePointerCell : Obligations.LoadIndAddrFollowsThePointerCell := by
  refine ⟨fun s hpc hptr hval => ?loaded, fun s code hpc => ?operandRefused, fun s code hpc hptr => ?pointerRefused,
    fun s code hpc hptr hval => ?valueRefused⟩
  case loaded =>
    rw [exec_loadIndAddr, fetchOperand_andThen_ok hpc, memRead_andThen_ok (by exact hptr),
      memRead_andThen_ok (by exact hval), settle_done]
    simp [State.operandFetched, State.record, State.cell]
  case operandRefused => rw [exec_loadIndAddr, fetchOperand_andThen_refused hpc, settle_raised]
  case pointerRefused =>
    rw [exec_loadIndAddr, fetchOperand_andThen_ok hpc, memRead_andThen_refused (by exact hptr), settle_raised,
      State.operandFetched]
  case valueRefused =>
    rw [exec_loadIndAddr, fetchOperand_andThen_ok hpc, memRead_andThen_ok (by exact hptr),
      memRead_andThen_refused (by exact hval), settle_raised]
    simp [State.operandFetched, State.record]

/-- Settles O26: the one check on the way to the loaded cell is that of the wrapped sum. -/
theorem indexedLoadsReadTheWrappedSum : Obligations.IndexedLoadsReadTheWrappedSum := by
  refine ⟨fun s hpc hsum => ?x, fun s hpc hsum => ?y, fun s hsum => ?spx, fun s code hpc hsum => ?xRefused,
    fun s code hpc hsum => ?yRefused, fun s code hsum => ?spxRefused⟩
  case x =>
    rw [exec_loadIdxXAddr, fetchOperand_andThen_ok hpc, memRead_andThen_ok (by exact hsum), settle_done]
    simp [State.operandFetched, State.record, State.cell]
  case y =>
    rw [exec_loadIdxYAddr, fetchOperand_andThen_ok hpc, memRead_andThen_ok (by exact hsum), settle_done]
    simp [State.operandFetched, State.record, State.cell]
  case spx => rw [exec_loadSpx, memRead_andThen_ok hsum, settle_done, State.record]
  case xRefused =>
    rw [exec_loadIdxXAddr, fetchOperand_andThen_ok hpc, memRead_andThen_refused (by exact hsum), settle_raised,
      State.operandFetched]
  case yRefused =>
    rw [exec_loadIdxYAddr, fetchOperand_andThen_ok hpc, memRead_andThen_refused (by exact hsum), settle_raised,
      State.operandFetched]
  case spxRefused => rw [exec_loadSpx, memRead_andThen_refused hsum, settle_raised]

theorem putOn_port {p : Word} {port : Port} (h : portOf p = some port) (s : State) :
    putOn p s = .done () (emit port s.ac s) := by
  rw [putOn, h]

theorem putOn_noPort {p : Word} (h : portOf p = none) (s : State) :
    putOn p s = .raised (raiseFatal .invalidPortCall s) := by
  rw [putOn, h]

/-- Settles O29: one clause per meaning of the operand, and one for the operand fetch that is refused. -/
theorem putEmitsOnPortsOneAndTwo : Obligations.PutEmitsOnPortsOneAndTwo := by
  refine ⟨fun s hpc hone => ?numeric, fun s hpc htwo => ?character, fun s hpc hone htwo => ?noPort,
    fun s code hpc => ?refused⟩
  case numeric =>
    rw [exec_put, fetchOperand_andThen_ok hpc, hone, putOn_port rfl, settle_done, emit, State.operandFetched]
  case character =>
    rw [exec_put, fetchOperand_andThen_ok hpc, htwo, putOn_port rfl, settle_done, emit, State.operandFetched]
  case noPort =>
    have hport : portOf (s.cell s.pc) = none := by simp [portOf, hone, htwo]
    rw [exec_put, fetchOperand_andThen_ok hpc, putOn_noPort hport, settle_raised, raiseFatal, State.operandFetched]
  case refused => rw [exec_put, fetchOperand_andThen_refused hpc, settle_raised]

/-- Advancing PC past an operand that then replaces it leaves no trace (90_conflicts.md C3). -/
theorem peekOperand_andThen_jump (s : State) :
    ((peekOperand s).andThen fun a t => .done () { t with pc := a }) =
      (fetchOperand s).andThen fun a t => .done () { t with pc := a } := by
  rw [peekOperand_eq, fetchOperand_eq]
  cases (check s.pc s.mode).code <;> rfl

theorem exec_jump_eq_fetchOperand (s : State) :
    exec .jump s = settle ((fetchOperand s).andThen fun a t => .done () { t with pc := a }) := by
  rw [exec_jump, peekOperand_andThen_jump]

/-- Every two-cell instruction but JUMP_RETURN begins with the operand fetch (R73). -/
theorem exec_begins_with_fetchOperand (i : Instr) (s : State) (hformat : i.format = .oi) (hi : i ≠ .jumpReturn) :
    ∃ f, exec i s = settle ((fetchOperand s).andThen f) :=
  match i, hformat, hi with
  | .loadVal, _, _ => ⟨_, exec_loadVal s⟩
  | .loadAddr, _, _ => ⟨_, exec_loadAddr s⟩
  | .loadIndAddr, _, _ => ⟨_, exec_loadIndAddr s⟩
  | .loadIdxXAddr, _, _ => ⟨_, exec_loadIdxXAddr s⟩
  | .loadIdxYAddr, _, _ => ⟨_, exec_loadIdxYAddr s⟩
  | .store, _, _ => ⟨_, exec_store s⟩
  | .put, _, _ => ⟨_, exec_put s⟩
  | .jump, _, _ => ⟨_, exec_jump_eq_fetchOperand s⟩
  | .jumpIfEq, _, _ => ⟨_, exec_jumpIfEq s⟩
  | .jumpIfNeq, _, _ => ⟨_, exec_jumpIfNeq s⟩
  | .jumpReturn, _, hi => absurd rfl hi

/-- Settles O34. -/
theorem refusedOperandFetchHalts : Obligations.RefusedOperandFetchHalts := by
  refine ⟨fun i s code hformat hi hpc => ?refused, exec_jump_eq_fetchOperand, fun s => ?call⟩
  case refused =>
    obtain ⟨f, hexec⟩ := exec_begins_with_fetchOperand i s hformat hi
    rw [hexec, fetchOperand_andThen_refused hpc, settle_raised]
  case call => simp only [exec_jumpReturn, peekOperand_andThen_jump]

end Sys2Proof.Machine
end

section
/-! PROOFS. Control transfer and the stack instructions (R27, R110 to R116). -/

namespace Sys2Proof.Machine

/-- Settles O10: the two outcomes of the read at SP; the two empty stacks are refused by their verdicts. -/
theorem popValueReadsAtTheStackPointer : Obligations.PopValueReadsAtTheStackPointer := by
  refine ⟨fun s => popValue_ok, fun s code => popValue_refused, fun s hmode hsp => popValue_refused ?user,
    fun s hmode hsp => popValue_refused ?kernel⟩
  case user => rw [hmode, hsp]; rfl
  case kernel => rw [hmode, hsp]; rfl

theorem acIsZero_iff {s : State} : acIsZero s = true ↔ s.ac.toInt = 0 := by
  rw [acIsZero, beq_iff_eq, ← BitVec.toInt_inj, BitVec.toInt_zero]

/-- Settles O30: the three jumps read the operand cell alike, and differ in which PC they keep. -/
theorem jumpsGoToTheOperand : Obligations.JumpsGoToTheOperand := by
  intro s hpc
  refine ⟨?jump, ?eq, ?neq⟩
  case jump =>
    rw [exec_jump_eq_fetchOperand, fetchOperand_andThen_ok hpc, settle_done, State.operandFetched]
  case eq =>
    rw [exec_jumpIfEq, fetchOperand_andThen_ok hpc, settle_done]
    simp only [acIsZero_iff, State.operandFetched]
    split <;> rfl
  case neq =>
    rw [exec_jumpIfNeq, fetchOperand_andThen_ok hpc, settle_done]
    simp only [acIsZero_iff, State.operandFetched]
    split <;> rfl

theorem exec_ret_ok {s : State} (h : check s.sp s.mode = .ok) :
    exec .ret s = .next { s with pc := s.cell s.sp, sp := s.sp + 1#32, bus := s.bus ++ [.read s.sp] } := by
  rw [exec_ret, popValue_ok h, Res.andThen_done, settle_done]

theorem exec_pop_ok {s : State} (h : check s.sp s.mode = .ok) :
    exec .pop s = .next { s with ac := s.cell s.sp, sp := s.sp + 1#32, bus := s.bus ++ [.read s.sp] } := by
  rw [exec_pop, popValue_ok h, Res.andThen_done, settle_done]

theorem exec_push_ok {s : State} (h : check (s.sp - 1#32) s.mode = .ok) :
    exec .push s = .next { s with
      sp := s.sp - 1#32, mem := Memory.write s.mem (s.sp - 1#32).toNat s.ac,
      bus := s.bus ++ [.write (s.sp - 1#32) s.ac] } := by
  rw [exec_push, pushValue_ok h, settle_done]

/-- What the target read of JUMP_RETURN finds: its own push where that fell on the operand cell (R113). -/
theorem exec_jumpReturn_ok {s : State} (hwf : Memory.wf s.mem = true) (hsp : check (s.sp - 1#32) s.mode = .ok)
    (hpc : check s.pc s.mode = .ok) :
    exec .jumpReturn s = .next { s with
      sp := s.sp - 1#32, pc := if s.sp - 1#32 = s.pc then s.pc + 1#32 else s.cell s.pc,
      mem := Memory.write s.mem (s.sp - 1#32).toNat (s.pc + 1#32),
      bus := s.bus ++ [.write (s.sp - 1#32) (s.pc + 1#32), .read s.pc] } := by
  have htarget : Memory.read (Memory.write s.mem (s.sp - 1#32).toNat (s.pc + 1#32)) s.pc.toNat =
      if s.sp - 1#32 = s.pc then s.pc + 1#32 else Memory.read s.mem s.pc.toNat := by
    rw [Memory.read_write hwf]
    simp only [BitVec.toNat_inj, eq_comm (a := s.pc)]
  rw [exec_jumpReturn, pushValue_ok hsp, Res.andThen_done, peekOperand, memRead_andThen_ok (by exact hpc), settle_done]
  simp only [State.record, State.cell, htarget, List.append_assoc, List.cons_append, List.nil_append]

/-- Settles O31. -/
theorem jumpReturnPushesThenJumps : Obligations.JumpReturnPushesThenJumps :=
  fun _ => exec_jumpReturn_ok

/-- Settles O32. -/
theorem stackInstructionsComplete : Obligations.StackInstructionsComplete :=
  ⟨fun _ h => ⟨exec_ret_ok h, exec_pop_ok h⟩, fun _ => exec_push_ok⟩

/-- Settles O33: a refused pop or push raises as the stack manager's rules say, and nothing follows it. -/
theorem refusedStackAccessHalts : Obligations.RefusedStackAccessHalts := by
  refine fun s code => ⟨fun hsp => ⟨?ret, ?pop⟩, fun hsp => ⟨?push, ?call⟩, fun hsp hpc => ?target⟩
  case ret => rw [exec_ret, popValue_refused hsp, Res.andThen_raised, settle_raised]
  case pop => rw [exec_pop, popValue_refused hsp, Res.andThen_raised, settle_raised]
  case push => rw [exec_push, pushValue_refused hsp, settle_raised]
  case call => rw [exec_jumpReturn, pushValue_refused hsp, Res.andThen_raised, settle_raised]
  case target =>
    rw [exec_jumpReturn, pushValue_ok hsp, Res.andThen_done, peekOperand, memRead_andThen_refused (by exact hpc),
      settle_raised]

end Sys2Proof.Machine
end

section
/-! PROOFS. Interrupt entry and return as the instructions SYSCALL and SYSRETURN see them (R120, R121, R136 to R139). -/

namespace Sys2Proof.Machine

theorem exec_syscall_dropped {s : State} (h : s.mode = .kernel ∨ s.ie = false) : exec .syscall s = .next s := by
  rw [exec_syscall, triggerInterrupt_dropped (by rcases h with h | h <;> simp [h]), settle_done]

/-- Settles O36. -/
theorem interruptsAreDroppedWithoutTrace : Obligations.InterruptsAreDroppedWithoutTrace :=
  fun _ _ h => ⟨triggerInterrupt_dropped (by rcases h with h | h <;> simp [h]), exec_syscall_dropped h⟩

theorem pushFrame_refused {s : State} {code : ExitCode} (h : (check (s.sp - 1#32) s.mode).code = some code) :
    pushFrame s = .raised { s with run := .halted code } := by
  rw [pushFrame, memWrite_refused h, Res.andThen_raised, raiseFatal]

theorem popFrame_refused {s : State} {code : ExitCode} (h : (check s.sp s.mode).code = some code) :
    popFrame s = .raised { s with run := .halted code } := by
  rw [popFrame, memRead_andThen_refused h]

/-- A bad KSP shows at the first frame write, after the mode switch (R136). -/
theorem triggerInterrupt_refused {s : State} {code : ExitCode} (hmode : s.mode = .user) (hie : s.ie = true)
    (h : (check (s.ksp - 1#32) .kernel).code = some code) (a : Word) :
    triggerInterrupt a s = .raised { enterKernel s with run := .halted code } := by
  rw [triggerInterrupt, if_pos ⟨hmode, hie⟩, pushFrame_refused (s := enterKernel s) h, Res.andThen_raised]

/-- Settles O37. -/
theorem badKernelStackPointerHaltsTheEntry : Obligations.BadKernelStackPointerHaltsTheEntry :=
  fun s code hmode hie h => by
    rw [exec_syscall, triggerInterrupt_refused hmode hie h, settle_raised, enterKernel]

theorem exec_sysreturn_done {s : State} (h : frameReadable s.sp s.mode = true) :
    exec .sysreturn s = .next s.returned := by
  rw [exec_sysreturn, returnFromInterrupt_done h, settle_done]

/-- Settles O38. -/
theorem sysreturnRestoresTheFrame : Obligations.SysreturnRestoresTheFrame :=
  ⟨fun _ => exec_sysreturn_done, fun s code h => by
    rw [exec_sysreturn, returnFromInterrupt, popFrame_refused h, Res.andThen_raised, settle_raised]⟩

end Sys2Proof.Machine
end

section
/-! PROOFS. The cells after some requests (20_memory.md R48, R50), and after the five writes of a frame (10_state.md
R28). -/

namespace Sys2Proof.Machine

theorem applyWrites_append (qs rs : List Request) (m : Memory) :
    applyWrites (qs ++ rs) m = applyWrites rs (applyWrites qs m) := by
  induction qs generalizing m with
  | nil => rfl
  | cons q qs ih => cases q <;> exact ih _

/-- A cell that no WRITE of the requests names reads as before. -/
theorem applyWrites_read_of_not_written {qs : List Request} {m : Memory} {k : Nat}
    (h : ∀ a v, .write a v ∈ qs → k ≠ a.toNat) : Memory.read (applyWrites qs m) k = Memory.read m k := by
  induction qs generalizing m with
  | nil => rfl
  | cons q qs ih =>
    have htail : ∀ a v, .write a v ∈ qs → k ≠ a.toNat := fun a v hmem => h a v (List.mem_cons_of_mem q hmem)
    cases q with
    | read a => exact ih htail
    | otherKind => exact ih htail
    | write a v =>
      calc
        Memory.read (applyWrites qs (Memory.write m a.toNat v)) k
            = Memory.read (Memory.write m a.toNat v) k := ih htail
        _ = Memory.read m k := Memory.read_write_ne (h a v List.mem_cons_self)

theorem applyWrites_wf {qs : List Request} {m : Memory} (hwf : Memory.wf m = true)
    (h : ∀ a v, .write a v ∈ qs → inBounds a = true) : Memory.wf (applyWrites qs m) = true := by
  induction qs generalizing m with
  | nil => exact hwf
  | cons q qs ih =>
    have htail : ∀ a v, .write a v ∈ qs → inBounds a = true := fun a v hmem => h a v (List.mem_cons_of_mem q hmem)
    cases q with
    | read a => exact ih hwf htail
    | otherKind => exact ih hwf htail
    | write a v => exact ih (Memory.wf_write hwf (inBounds_lt (h a v List.mem_cons_self))) htail

/-- The offsets below SP at which a frame lies (R28). -/
def frameOffsets : List Word := [1#32, 2#32, 3#32, 4#32, 5#32]

theorem write_mem_frameWrites {sp pc ir ac x y a v : Word} (h : .write a v ∈ frameWrites sp pc ir ac x y) :
    ∃ d ∈ frameOffsets, a = sp - d := by
  simp only [frameWrites, List.mem_cons, Request.write.injEq, List.not_mem_nil, or_false] at h
  simp only [frameOffsets, List.mem_cons, List.not_mem_nil, or_false, exists_eq_or_imp, exists_eq_left]
  exact h.imp And.left (Or.imp And.left (Or.imp And.left (Or.imp And.left And.left)))

/-- Cells off the frame are not written, however many of the five writes were done. -/
theorem frameWrites_take_read {sp pc ir ac x y : Word} {m : Memory} {k : Nat}
    (h : ∀ d ∈ frameOffsets, k ≠ (sp - d).toNat) (n : Nat) :
    Memory.read (applyWrites ((frameWrites sp pc ir ac x y).take n) m) k = Memory.read m k := by
  refine applyWrites_read_of_not_written fun a v hmem => ?_
  obtain ⟨d, hd, rfl⟩ := write_mem_frameWrites (List.mem_of_mem_take hmem)
  exact h d hd

theorem frameWrites_read {sp pc ir ac x y : Word} {m : Memory} {k : Nat}
    (h : ∀ d ∈ frameOffsets, k ≠ (sp - d).toNat) :
    Memory.read (applyWrites (frameWrites sp pc ir ac x y) m) k = Memory.read m k :=
  frameWrites_take_read (pc := pc) (ir := ir) (ac := ac) (x := x) (y := y) h 5

/-- A frame is popped from where it was pushed: its five cells, from the lowered SP up (R29). -/
theorem frameReadable_iff {sp : Word} {m : Mode} :
    frameReadable (sp - 5#32) m = true ↔ ∀ d ∈ frameOffsets, check (sp - d) m = .ok := by
  obtain ⟨h4, h3, h2, h1, _⟩ := frame_offsets sp
  simp only [frameReadable, frameOffsets, List.all_cons, List.all_nil, List.forall_mem_cons, BitVec.add_zero, h1, h2,
    h3, h4, Bool.and_true, Bool.and_eq_true, beq_iff_eq, List.not_mem_nil, false_implies, implies_true, and_true]
  tauto

/-- The frame that an interrupt pushes lies where the one popped from `sp` lay (60_exceptions.md R141 (b)). -/
theorem frameFits_iff_frameReadable {sp : Word} : frameFits (sp + 5#32) = true ↔ frameReadable sp .kernel = true := by
  rw [frameFits_iff, ← frameOffsets, ← frameReadable_iff, BitVec.add_sub_cancel]

/-- PopFrame where PushFrame has written restores the five registers and SP, whatever was in them. -/
theorem popFrame_of_frameWrites {u : State} {m : Memory} {sp pc ir ac x y : Word} (hwf : Memory.wf m = true)
    (hcheck : ∀ d ∈ frameOffsets, check (sp - d) u.mode = .ok) (hsp : u.sp = sp - 5#32)
    (hmem : u.mem = applyWrites (frameWrites sp pc ir ac x y) m) :
    ∃ seen, popFrame u =
      .done () { u with pc := pc, ir := ir, ac := ac, x := x, y := y, sp := sp, bus := seen } := by
  obtain ⟨_, hpc, hir, hac, hx, hy⟩ :=
    frameWrites_cells hwf sp pc ir ac x y fun d hd => check_ok_inBounds (hcheck d hd)
  obtain ⟨h4, h3, h2, h1, h0⟩ := frame_offsets sp
  rw [popFrame_done (by rw [hsp]; exact frameReadable_iff.2 hcheck)]
  simp only [State.cell, hsp, hmem, h0, h1, h2, h3, h4, hpc, hir, hac, hx, hy]
  exact ⟨_, rfl⟩

/-- Settles O11. -/
theorem popFrameUndoesPushFrame : Obligations.PopFrameUndoesPushFrame := by
  intro s pc ir ac x y hwf hcheck
  have hpush := pushFrame_done (s := s) (hcheck _ (by simp)) (hcheck _ (by simp)) (hcheck _ (by simp))
    (hcheck _ (by simp)) (hcheck _ (by simp))
  exact ⟨_, hpush, rfl, popFrame_of_frameWrites hwf hcheck rfl rfl⟩

end Sys2Proof.Machine
end

section
/-! PROOFS. Interrupt entry, the return from it, and the timer tick that follows (60_exceptions.md R136 to R141). -/

namespace Sys2Proof.Machine

theorem exec_syscall_taken {s : State} (hmode : s.mode = .user) (hie : s.ie = true) (hfits : frameFits s.ksp = true) :
    exec .syscall s = .next (s.interrupted 1500#32) := by
  rw [exec_syscall, triggerInterrupt_taken hmode hie hfits, settle_done]

/-- Settles O35: the entry is taken, its five writes hold the registers, and no other cell is written. -/
theorem syscallEntersTheHandler : Obligations.SyscallEntersTheHandler := by
  intro s hwf hmode hie hfits
  obtain ⟨_, hpc, hir, hac, hx, hy⟩ :=
    frameWrites_cells hwf s.ksp s.pc s.ir s.ac s.x s.y fun d hd => check_ok_inBounds (frameFits_iff.1 hfits d hd)
  exact ⟨exec_syscall_taken hmode hie hfits, hpc, hir, hac, hx, hy, fun k hk => frameWrites_read hk⟩

/-- Settles O47: the return pops the frame the entry pushed; KSP is again where the frame ends, and USP gives SP
back. -/
theorem sysreturnResumesAfterSyscall : Obligations.SysreturnResumesAfterSyscall := by
  intro s pc ir ac x y hwf hmode hie hfits
  obtain ⟨seen, hpop⟩ := popFrame_of_frameWrites
    (u := { s.interrupted 1500#32 with pc := pc, ir := ir, ac := ac, x := x, y := y })
    (sp := s.ksp) (pc := s.pc) (ir := s.ir) (ac := s.ac) (x := s.x) (y := s.y) hwf (frameFits_iff.1 hfits) rfl rfl
  refine ⟨s.interrupted 1500#32, seen, exec_syscall_taken hmode hie hfits, ?_⟩
  rw [exec_sysreturn, returnFromInterrupt, hpop, Res.andThen_done, settle_done]
  simp only [State.interrupted, hmode, hie]

theorem afterExecute_tick_taken {u : State} (hrun : u.run = .running) (hmode : u.mode = .user) (hie : u.ie = true)
    (hfits : frameFits u.ksp = true) (htick : (u.counter + 1) % u.timerValue = 0) :
    afterExecute u = { u with counter := u.counter + 1 }.interrupted 1000#32 := by
  rw [afterExecute_running hrun, if_pos htick,
    triggerInterrupt_taken (s := { u with counter := u.counter + 1 }) hmode hie hfits, Res.state_done]

/-- Settles O49: the second clause is the first on the state SYSRETURN leaves, where the next frame fits because the
popped one was readable. -/
theorem timerTickInUserModeIsTaken : Obligations.TimerTickInUserModeIsTaken := by
  refine ⟨fun u => afterExecute_tick_taken, fun s hrun hmode hreadable htick => ⟨?_, ?_⟩⟩
  · exact exec_sysreturn_done (by rw [hmode]; exact hreadable)
  · exact afterExecute_tick_taken (u := s.returned) hrun rfl rfl (frameFits_iff_frameReadable.2 hreadable) htick

end Sys2Proof.Machine
end

section
/-! PROOFS. Pairs of instructions that undo each other or meet in a cell (R51, R113 to R116). -/

namespace Sys2Proof.Machine

/-- Settles O45: POP reads the cell PUSH wrote. -/
theorem popUndoesPush : Obligations.PopUndoesPush := by
  intro s a hwf hsp
  refine ⟨_, _, exec_push_ok hsp, exec_pop_ok (by exact hsp), ?_, BitVec.sub_add_cancel s.sp 1#32, rfl⟩
  exact Memory.read_write_eq hwf

/-- Settles O46: RETURN reads the cell JUMP_RETURN wrote. -/
theorem returnUndoesJumpReturn : Obligations.ReturnUndoesJumpReturn := by
  intro s pc ir ac x y hwf hsp hpc
  refine ⟨_, _, exec_jumpReturn_ok hwf hsp hpc, exec_ret_ok (by exact hsp), ?_, BitVec.sub_add_cancel s.sp 1#32, rfl⟩
  exact Memory.read_write_eq hwf

/-- A STORE that leaves the machine running was let pass at both its accesses. -/
theorem exec_store_running {s t : State} (hexec : exec .store s = .next t) (hrun : t.run = .running) :
    check s.pc s.mode = .ok ∧ check (s.cell s.pc) s.mode = .ok := by
  by_cases hpc : check s.pc s.mode = .ok
  · refine ⟨hpc, ?_⟩
    by_contra ha
    obtain ⟨code, hcode⟩ := check_refused_code ha
    rw [exec_store_write_refused hpc hcode] at hexec
    cases hexec
    cases hrun
  · obtain ⟨code, hcode⟩ := check_refused_code hpc
    rw [exec_store_operand_refused hcode] at hexec
    cases hexec
    cases hrun

/-- Settles O48: the fetch is let pass where the write was, and reads the cell written. -/
theorem nextFetchSeesTheStoredOpcode : Obligations.NextFetchSeesTheStoredOpcode := by
  intro s t hwf _ hexec hrun hnext
  obtain ⟨hpc, ha⟩ := exec_store_running hexec hrun
  rw [exec_store_ok hpc ha] at hexec
  cases hexec
  have hnext : s.pc + 1#32 = s.cell s.pc := hnext
  refine ⟨_, fetch_ok (by rw [hnext]; exact ha), ?_⟩
  simp only [State.fetched, State.cell, hnext]
  exact Memory.read_write_eq hwf

end Sys2Proof.Machine
end

section
/-! PROOFS. The step by its parts (40_execute_loop.md R70 to R76), and the state it starts from (R30, R150). -/

namespace Sys2Proof.Machine

theorem step_fetch_refused {s : State} {code : ExitCode} (hrun : s.run = .running) (htimer : 0 < s.timerValue)
    (h : (check s.pc s.mode).code = some code) : step s = .next (raiseFatal code s) := by
  simp only [step, hrun, htimer.ne', if_false, fetch_refused h]

theorem step_fetched {s : State} (hrun : s.run = .running) (htimer : 0 < s.timerValue)
    (h : check s.pc s.mode = .ok) : step s = decodeAndExecute s.fetched := by
  simp only [step, hrun, htimer.ne', if_false, fetch_ok h]

theorem decodeAndExecute_ok {s t : State} {i : Instr} (hdecode : decodeOpcode s.ir = .ok i)
    (hexec : exec i s = .next t) : decodeAndExecute s = .next (afterExecute t) := by
  simp only [decodeAndExecute, hdecode, hexec]

theorem decodeAndExecute_illegal {s : State} {why : DecodeReject} (hdecode : decodeOpcode s.ir = .error why) :
    decodeAndExecute s = .next (raiseFatal .invalidOpcode s) := by
  simp only [decodeAndExecute, hdecode]
  rfl

/-- Settles O13. -/
theorem stepRunsTheDecodedInstruction : Obligations.StepRunsTheDecodedInstruction := by
  intro s i hrun htimer hpc hdecode
  obtain ⟨t, hexec⟩ := exec_next i s.fetched
  exact ⟨t, hexec, by rw [step_fetched hrun htimer hpc, decodeAndExecute_ok hdecode hexec]⟩

/-- Settles O14. -/
theorem stepWithoutAnInstructionHalts : Obligations.StepWithoutAnInstructionHalts := by
  refine ⟨fun s code hrun htimer hpc => step_fetch_refused hrun htimer hpc, fun s why hrun htimer hpc hdecode => ?_⟩
  rw [step_fetched hrun htimer hpc, decodeAndExecute_illegal hdecode, raiseFatal, State.fetched]

/-- What a trigger can write: not the counter, the period, KSP, the output, the draw index, and none of IR, AC, X, Y. -/
def State.entered (s t : State) : State :=
  { s with
    usp := t.usp, sp := t.sp, mode := t.mode, ie := t.ie, pc := t.pc, mem := t.mem, bus := t.bus, run := t.run }

theorem triggerInterrupt_frame (h : Word) (s : State) :
    (triggerInterrupt h s).state = s.entered (triggerInterrupt h s).state := by
  rcases triggerInterrupt_cases h s with ⟨_, heq⟩ | ⟨_, _, _, heq⟩ | ⟨_, _, _, _, _, _, heq⟩ <;> rw [heq] <;> rfl

theorem triggerInterrupt_counter (h : Word) (s : State) : (triggerInterrupt h s).state.counter = s.counter :=
  (congrArg State.counter (triggerInterrupt_frame h s) :)

/-- Settles O15: the two outcomes of the timer check, and the counter that an entry leaves alone. -/
theorem afterExecuteCountsAndChecksTheTimer : Obligations.AfterExecuteCountsAndChecksTheTimer := by
  intro u
  refine ⟨fun hrun => ?halted, fun hrun => ?counter, fun hrun htick => ?noTick, fun hrun htick => ?tick⟩
  case halted =>
    cases hcode : u.run with
    | running => exact absurd hcode hrun
    | halted code => exact afterExecute_halted hcode
  case counter =>
    rw [afterExecute_running hrun]
    split
    · rw [triggerInterrupt_counter]
    · rfl
  case noTick => rw [afterExecute_running hrun, if_neg htick]
  case tick => rw [afterExecute_running hrun, if_pos htick]

/-- Settles O17. -/
theorem runningMachineAlwaysSteps : Obligations.RunningMachineAlwaysSteps :=
  fun _ => step_next_of_running

/-- Settles O19: the table is the definition of the launched state, field by field. -/
theorem launchLeavesTheResetTable : Obligations.LaunchLeavesTheResetTable := fun _ => rfl

theorem legal_iff {s : State} :
    s.legal = true ↔ Memory.wf s.mem = true ∧ s.controlPair = true ∧ 0 < s.timerValue := by
  simp [State.legal, and_assoc]

theorem launch_legal {l : Launch} (himage : Memory.wf l.image = true) (htimer : 0 < l.timerValue) :
    (State.launch l).legal = true :=
  legal_iff.2 ⟨himage, rfl, htimer⟩

/-- Settles O52: the reset state is a launch with no cell listed and a positive period. -/
theorem launchIsLegal : Obligations.LaunchIsLegal :=
  ⟨fun _ => launch_legal, launch_legal (l := Launch.default) Memory.wf_nil (by decide)⟩

end Sys2Proof.Machine
end

section
/-! PROOFS. The requests an instruction sends (70_reset_and_hazards.md R163), by rules for the shared operations: each
request is let pass by access control, and the cells change by nothing but the WRITEs sent (20_memory.md R48, R50). -/

namespace Sys2Proof.Machine

/-! ### Requests sent between two states -/

/-- Access control lets the request pass in a mode (R44, R45). -/
def Request.permitted (m : Mode) : Request → Prop
  | .read a => check a m = .ok
  | .write a _ => check a m = .ok
  | .otherKind => False

/-- Between `s` and `t` the requests `qs` were sent, all let pass in the mode `m`, and served. -/
structure Sent (m : Mode) (s t : State) (qs : List Request) : Prop where
  bus : t.bus = s.bus ++ qs
  mem : t.mem = applyWrites qs s.mem
  permitted : ∀ q ∈ qs, q.permitted m

theorem Sent.nil {m : Mode} {s t : State} (hbus : t.bus = s.bus) (hmem : t.mem = s.mem) : Sent m s t [] :=
  ⟨by simp [hbus], hmem, nofun⟩

theorem Sent.trans {m : Mode} {s t u : State} {qs rs : List Request} (h : Sent m s t qs) (h' : Sent m t u rs) :
    Sent m s u (qs ++ rs) where
  bus := by rw [h'.bus, h.bus, List.append_assoc]
  mem := by rw [h'.mem, h.mem, applyWrites_append]
  permitted := List.forall_mem_append.2 ⟨h.permitted, h'.permitted⟩

theorem Res.andThen_assoc {α β γ : Type} (r : Res α) (f : α → State → Res β) (g : β → State → Res γ) :
    (r.andThen f).andThen g = r.andThen fun v t => (f v t).andThen g := by
  cases r <;> rfl

theorem Res.andThen_done_unit (r : Res Unit) : (r.andThen fun _ s => .done () s) = r := by
  cases r <;> rfl

/-- From `s` an operation sends `qs`, whole if it is done; if it raises, an initial piece, with a code of a run. -/
def Res.Sends {α : Type} (m : Mode) (s : State) (qs : List Request) : Res α → Prop
  | .done _ t => t.run = s.run ∧ Sent m s t qs
  | .raised t => ∃ code n, code.raisedInRun = true ∧ t.run = .halted code ∧ Sent m s t (qs.take n)

theorem Res.Sends.raise {α : Type} {m : Mode} {s t : State} {qs : List Request} {code : ExitCode}
    (hbus : t.bus = s.bus) (hmem : t.mem = s.mem) (hcode : code.raisedInRun = true) (hrun : t.run = .halted code) :
    (.raised t : Res α).Sends m s qs :=
  ⟨code, 0, hcode, hrun, by rw [List.take_zero]; exact Sent.nil hbus hmem⟩

/-- Two states that differ in nothing the bus sees: a change of registers between two requests. -/
def SameBus (s u : State) : Prop := u.run = s.run ∧ u.bus = s.bus ∧ u.mem = s.mem

theorem Res.Sends.done {m : Mode} {s t : State} (h : SameBus s t := by exact ⟨rfl, rfl, rfl⟩) :
    (Res.done () t).Sends m s [] :=
  have ⟨hrun, hbus, hmem⟩ := h
  ⟨hrun, Sent.nil hbus hmem⟩

theorem Res.Sends.of_sameBus {α : Type} {m : Mode} {s u : State} {qs : List Request} {r : Res α}
    (hr : r.Sends m u qs) (h : SameBus s u) : r.Sends m s qs := by
  obtain ⟨hrun, hbus, hmem⟩ := h
  have hsent {t : State} {rs : List Request} (hu : Sent m u t rs) : Sent m s t rs :=
    ⟨by rw [hu.bus, hbus], by rw [hu.mem, hmem], hu.permitted⟩
  cases r with
  | done v t => exact ⟨hr.1.trans hrun, hsent hr.2⟩
  | raised t =>
    obtain ⟨code, n, hcode, ht, hu⟩ := hr
    exact ⟨code, n, hcode, ht, hsent hu⟩

/-- What follows a request sends the rest of the row. -/
theorem Res.Sends.cons {α : Type} {m : Mode} {s : State} {q : Request} {qs : List Request} {r : Res α} (t : State)
    (hq : Sent m s t [q]) (hrun : t.run = s.run) (hr : r.Sends m t qs) : r.Sends m s (q :: qs) := by
  cases r with
  | done v u => exact ⟨hr.1.trans hrun, hq.trans hr.2⟩
  | raised u =>
    obtain ⟨code, n, hcode, hu, hsent⟩ := hr
    exact ⟨code, n + 1, hcode, hu, hq.trans hsent⟩

/-- A last change of registers sends nothing. -/
theorem Res.Sends.andThen_done {α : Type} {m : Mode} {s : State} {qs : List Request} {r : Res α}
    (hr : r.Sends m s qs) (g : State → State) (hg : ∀ t, SameBus t (g t) := by exact fun _ => ⟨rfl, rfl, rfl⟩) :
    (r.andThen fun _ t => Res.done () (g t)).Sends m s qs := by
  cases r with
  | done v t =>
    obtain ⟨ht, hbus, hmem, hpermitted⟩ := hr
    obtain ⟨hgrun, hgbus, hgmem⟩ := hg t
    exact ⟨hgrun.trans ht, hgbus.trans hbus, hgmem.trans hmem, hpermitted⟩
  | raised t => exact hr

/-! ### The shared operations

`s` is where the row begins; the operation starts from `u`, which may differ from it in registers. -/

theorem memRead_andThen_sends {a : Word} {m : Mode} {s u : State} {qs : List Request} {f : Word → State → Res Unit}
    (hf : (f (u.cell a) (u.record [.read a])).Sends m (s.record [.read a]) qs)
    (hmode : u.mode = m := by rfl) (hsame : SameBus s u := by exact ⟨rfl, rfl, rfl⟩) :
    ((memRead a u).andThen f).Sends m s (.read a :: qs) := by
  obtain ⟨hrun, hbus, hmem⟩ := hsame
  cases hcode : (check a u.mode).code with
  | some code =>
    rw [memRead_andThen_refused hcode]
    exact .raise hbus hmem (check_code_raisedInRun hcode) rfl
  | none =>
    have hok := Verdict.code_eq_none.1 hcode
    rw [memRead_andThen_ok hok]
    exact .cons (s.record [.read a]) ⟨rfl, rfl, List.forall_mem_singleton.2 (hmode ▸ hok)⟩ rfl hf

theorem fetchOperand_andThen_sends {m : Mode} {s : State} {qs : List Request} {f : Word → State → Res Unit}
    (hf : (f (s.cell s.pc) s.operandFetched).Sends m (s.record [.read s.pc]) qs) (hmode : s.mode = m := by rfl) :
    ((fetchOperand s).andThen f).Sends m s (.read s.pc :: qs) := by
  rw [fetchOperand, Res.andThen_assoc]
  exact memRead_andThen_sends hf hmode

theorem popValue_andThen_sends {m : Mode} {s : State} {qs : List Request} {f : Word → State → Res Unit}
    (hf : (f (s.cell s.sp) { s.record [.read s.sp] with sp := s.sp + 1#32 }).Sends m (s.record [.read s.sp]) qs)
    (hmode : s.mode = m := by rfl) : ((popValue s).andThen f).Sends m s (.read s.sp :: qs) := by
  rw [popValue, Res.andThen_assoc]
  exact memRead_andThen_sends hf hmode

/-- The state after a WRITE that was let pass and served (R45). -/
def State.written (a v : Word) (s : State) : State :=
  { s with mem := Memory.write s.mem a.toNat v, bus := s.bus ++ [.write a v] }

theorem memWrite_andThen_sends {a v : Word} {m : Mode} {s u : State} {qs : List Request} {f : Unit → State → Res Unit}
    (hf : (f () (u.written a v)).Sends m (s.written a v) qs)
    (hmode : u.mode = m := by rfl) (hsame : SameBus s u := by exact ⟨rfl, rfl, rfl⟩) :
    ((memWrite a v u).andThen f).Sends m s (.write a v :: qs) := by
  obtain ⟨hrun, hbus, hmem⟩ := hsame
  cases hcode : (check a u.mode).code with
  | some code =>
    rw [memWrite_refused hcode]
    exact .raise hbus hmem (check_code_raisedInRun hcode) rfl
  | none =>
    have hok := Verdict.code_eq_none.1 hcode
    rw [memWrite_ok hok]
    exact .cons (s.written a v) ⟨rfl, rfl, List.forall_mem_singleton.2 (hmode ▸ hok)⟩ rfl hf

theorem memWrite_sends {a v : Word} {m : Mode} {s u : State} (hmode : u.mode = m := by rfl)
    (hsame : SameBus s u := by exact ⟨rfl, rfl, rfl⟩) : (memWrite a v u).Sends m s [.write a v] := by
  obtain ⟨hrun, hbus, hmem⟩ := hsame
  rw [← Res.andThen_done_unit (memWrite a v u)]
  exact memWrite_andThen_sends (.done ⟨hrun, by simp [State.written, hbus], by simp [State.written, hmem]⟩) hmode
    ⟨hrun, hbus, hmem⟩

theorem pushValue_andThen_sends {v : Word} {m : Mode} {s : State} {qs : List Request} {f : Unit → State → Res Unit}
    (hf : (f () (State.written (s.sp - 1#32) v { s with sp := s.sp - 1#32 })).Sends m (s.written (s.sp - 1#32) v) qs)
    (hmode : s.mode = m := by rfl) : ((pushValue v s).andThen f).Sends m s (.write (s.sp - 1#32) v :: qs) :=
  memWrite_andThen_sends hf hmode

theorem pushFrame_sends (s : State) :
    (pushFrame s).Sends s.mode s (frameWrites s.sp s.pc s.ir s.ac s.x s.y) :=
  memWrite_andThen_sends <| memWrite_andThen_sends <| memWrite_andThen_sends <| memWrite_andThen_sends <|
    memWrite_andThen_sends <| .done

theorem popFrame_sends (s : State) : (popFrame s).Sends s.mode s (frameReads s.sp) :=
  memRead_andThen_sends <| memRead_andThen_sends <| memRead_andThen_sends <| memRead_andThen_sends <|
    memRead_andThen_sends <| .done

/-- The frame of a taken interrupt is checked as Kernel (D4, log entry 12). -/
theorem triggerInterrupt_taken_sends {s : State} (hmode : s.mode = .user) (hie : s.ie = true) (h : Word) :
    (triggerInterrupt h s).Sends .kernel s (frameWrites s.ksp s.pc s.ir s.ac s.x s.y) := by
  have hpush : (pushFrame (enterKernel s)).Sends .kernel s (frameWrites s.ksp s.pc s.ir s.ac s.x s.y) :=
    (pushFrame_sends (enterKernel s)).of_sameBus ⟨rfl, rfl, rfl⟩
  rw [triggerInterrupt, if_pos ⟨hmode, hie⟩]
  exact hpush.andThen_done fun t => { t with pc := h }

theorem returnFromInterrupt_sends (s : State) : (returnFromInterrupt s).Sends s.mode s (frameReads s.sp) :=
  (popFrame_sends s).andThen_done fun t => { t with ksp := t.sp, sp := t.usp, mode := .user, ie := true }

/-! ### The instructions -/

/-- The mode in which the accesses of an instruction are checked: SYSCALL pushes its frame as Kernel. -/
def accessMode (i : Instr) (s : State) : Mode :=
  match i with
  | .syscall => .kernel
  | _ => s.mode

theorem putOn_sends {p : Word} {s u : State} {m : Mode} (hsame : SameBus s u) : (putOn p u).Sends m s [] := by
  obtain ⟨hrun, hbus, hmem⟩ := hsame
  cases hport : portOf p with
  | none =>
    rw [putOn_noPort hport]
    exact .raise hbus hmem rfl rfl
  | some port =>
    rw [putOn_port hport]
    exact .done ⟨hrun, hbus, hmem⟩

theorem exec_syscall_sends (s : State) :
    (triggerInterrupt 1500#32 s).Sends .kernel s (instrTransactions .syscall s) := by
  by_cases hs : s.mode = .user ∧ s.ie = true
  · simp only [instrTransactions, if_pos hs]
    exact triggerInterrupt_taken_sends hs.1 hs.2 _
  · simp only [instrTransactions, if_neg hs]
    rw [triggerInterrupt_dropped hs]
    exact .done

/-- Every instruction sends its row of the table, by the rules for the operations it is made of. -/
theorem exec_sends (i : Instr) (s : State) :
    ∃ r, exec i s = settle r ∧ r.Sends (accessMode i s) s (instrTransactions i s) :=
  match i with
  | .loadVal => ⟨_, exec_loadVal s, fetchOperand_andThen_sends .done⟩
  | .loadAddr => ⟨_, exec_loadAddr s, fetchOperand_andThen_sends (memRead_andThen_sends .done)⟩
  | .loadIndAddr =>
    ⟨_, exec_loadIndAddr s,
      fetchOperand_andThen_sends (memRead_andThen_sends (memRead_andThen_sends .done))⟩
  | .loadIdxXAddr => ⟨_, exec_loadIdxXAddr s, fetchOperand_andThen_sends (memRead_andThen_sends .done)⟩
  | .loadIdxYAddr => ⟨_, exec_loadIdxYAddr s, fetchOperand_andThen_sends (memRead_andThen_sends .done)⟩
  | .loadSpx => ⟨_, exec_loadSpx s, memRead_andThen_sends .done⟩
  | .store => ⟨_, exec_store s, fetchOperand_andThen_sends memWrite_sends⟩
  | .put => ⟨_, exec_put s, fetchOperand_andThen_sends (putOn_sends ⟨rfl, rfl, rfl⟩)⟩
  | .jump => ⟨_, exec_jump s, memRead_andThen_sends .done⟩
  | .jumpIfEq => ⟨_, exec_jumpIfEq s, fetchOperand_andThen_sends (by split <;> exact .done)⟩
  | .jumpIfNeq => ⟨_, exec_jumpIfNeq s, fetchOperand_andThen_sends (by split <;> exact .done)⟩
  | .jumpReturn =>
    ⟨_, exec_jumpReturn s, pushValue_andThen_sends (memRead_andThen_sends .done)⟩
  | .ret => ⟨_, exec_ret s, popValue_andThen_sends .done⟩
  | .pop => ⟨_, exec_pop s, popValue_andThen_sends .done⟩
  | .push => ⟨_, exec_push s, memWrite_sends⟩
  | .syscall => ⟨_, exec_syscall s, exec_syscall_sends s⟩
  | .sysreturn => ⟨_, exec_sysreturn s, returnFromInterrupt_sends s⟩
  | .halt => ⟨_, rfl, .raise rfl rfl rfl rfl⟩
  | .get | .addx | .addy | .subx | .suby | .incx | .decx | .copyToX | .copyFrX | .copyToY | .copyFrY | .copyToSp
  | .copyFrSp => ⟨_, rfl, .done⟩

end Sys2Proof.Machine
end

section
/-! PROOFS. What the requests of an instruction say of the cells and of the run state: the transaction table, and the
frames of the storing and the other instructions (10_state.md R28, 70_reset_and_hazards.md R163). -/

namespace Sys2Proof.Machine

/-- Everything an instruction has sent when it answers a next state: its whole row if it did not halt the machine, an
initial piece of it if it did. -/
theorem exec_sent {i : Instr} {s t : State} (h : exec i s = .next t) :
    (t.run = s.run ∧ Sent (accessMode i s) s t (instrTransactions i s)) ∨
    ∃ code n, code.raisedInRun = true ∧ t.run = .halted code ∧
      Sent (accessMode i s) s t ((instrTransactions i s).take n) := by
  obtain ⟨r, hexec, hr⟩ := exec_sends i s
  rw [hexec] at h
  cases r with
  | done v u => cases h; exact .inl hr
  | raised u => cases h; exact .inr hr

theorem exec_sent_take {i : Instr} {s t : State} (h : exec i s = .next t) :
    ∃ n, Sent (accessMode i s) s t ((instrTransactions i s).take n) := by
  rcases exec_sent h with ⟨_, hsent⟩ | ⟨_, n, _, _, hsent⟩
  · exact ⟨(instrTransactions i s).length, by rwa [List.take_length]⟩
  · exact ⟨n, hsent⟩

/-- Settles O44. -/
theorem transactionsFollowTheTable : Obligations.TransactionsFollowTheTable := by
  intro i s t _ hexec
  obtain ⟨n, hsent⟩ := exec_sent_take hexec
  refine ⟨⟨n, hsent.bus⟩, fun hrun => ?_⟩
  rcases exec_sent hexec with ⟨_, hwhole⟩ | ⟨code, _, _, hhalted, _⟩
  · exact hwhole.bus
  · rw [hhalted] at hrun
    cases hrun

/-- An instruction changes no cell that its row does not write, whether or not it halts. -/
theorem exec_read_of_not_written {i : Instr} {s t : State} (h : exec i s = .next t) {k : Nat}
    (hk : ∀ a v, .write a v ∈ instrTransactions i s → k ≠ a.toNat) :
    Memory.read t.mem k = Memory.read s.mem k := by
  obtain ⟨n, hsent⟩ := exec_sent_take h
  rw [hsent.mem]
  exact applyWrites_read_of_not_written fun a v hmem => hk a v (List.mem_of_mem_take hmem)

/-- Settles O40: each row has one WRITE. -/
theorem storingInstructionsChangeOneCell : Obligations.StoringInstructionsChangeOneCell := by
  intro s t
  refine ⟨fun hexec k hk => exec_read_of_not_written hexec fun a v hmem => ?store,
    fun hexec k hk => exec_read_of_not_written hexec fun a v hmem => ?push,
    fun hexec k hk => exec_read_of_not_written hexec fun a v hmem => ?call⟩
  case store =>
    have ha : a = s.cell s.pc ∧ v = s.ac := by simpa [instrTransactions, State.cell] using hmem
    exact ha.1 ▸ hk
  case push =>
    have ha : a = s.sp - 1#32 ∧ v = s.ac := by
      simpa only [instrTransactions, List.mem_singleton, Request.write.injEq] using hmem
    exact ha.1 ▸ hk
  case call =>
    have ha : a = s.sp - 1#32 ∧ v = s.pc + 1#32 := by
      simpa only [instrTransactions, List.mem_cons, List.not_mem_nil, or_false, reduceCtorEq,
        Request.write.injEq] using hmem
    exact ha.1 ▸ hk

/-- The rows with a WRITE are those of the four storing instructions. -/
theorem not_write_mem_instrTransactions {i : Instr} (hi : i ∉ [Instr.store, .push, .jumpReturn, .syscall]) (s : State)
    (a v : Word) : .write a v ∉ instrTransactions i s := by
  revert hi
  cases i <;> simp [instrTransactions]

/-- Requests without a WRITE leave the cells as they are. -/
theorem applyWrites_eq_self {qs : List Request} (h : ∀ a v, .write a v ∉ qs) (m : Memory) : applyWrites qs m = m := by
  induction qs with
  | nil => rfl
  | cons q qs ih =>
    have htail : ∀ a v, .write a v ∉ qs := fun a v hmem => h a v (List.mem_cons_of_mem q hmem)
    cases q with
    | read a => exact ih htail
    | otherKind => exact ih htail
    | write a v => exact absurd List.mem_cons_self (h a v)

/-- The row of SYSCALL writes the frame cells, or nothing. -/
theorem write_mem_syscall {s : State} {a v : Word} (h : .write a v ∈ instrTransactions .syscall s) :
    ∃ d ∈ frameOffsets, a = s.ksp - d := by
  simp only [instrTransactions] at h
  split at h
  · exact write_mem_frameWrites h
  · cases h

/-- Settles O41. -/
theorem otherInstructionsLeaveTheCells : Obligations.OtherInstructionsLeaveTheCells := by
  refine fun s t => ⟨fun hexec k hk => exec_read_of_not_written hexec fun a v hmem => ?_, fun i hi hexec => ?_⟩
  · obtain ⟨d, hd, rfl⟩ := write_mem_syscall hmem
    exact hk d hd
  · obtain ⟨n, hsent⟩ := exec_sent_take hexec
    rw [hsent.mem]
    exact applyWrites_eq_self
      (fun a v hmem => not_write_mem_instrTransactions hi s a v (List.mem_of_mem_take hmem)) s.mem

end Sys2Proof.Machine
end

section
/-! PROOFS. Which parts of the state an instruction writes (10_state.md R11 to R24, 42_io.md R87, R88). -/

namespace Sys2Proof.Machine

/-- `t` differs from `s` only in what the rule of the instruction writes, or a halt of it leaves written: the registers
it names, the control state of SYSCALL and SYSRETURN, the cells and the record of its requests, the output and the draw
index of PUT and GET, and the run state. -/
def WritesOnly (i : Instr) (s t : State) : Prop :=
  t = match i with
  | .loadVal | .loadAddr | .loadIndAddr | .loadIdxXAddr | .loadIdxYAddr | .loadSpx =>
    { s with ac := t.ac, pc := t.pc, bus := t.bus, run := t.run }
  | .store => { s with pc := t.pc, mem := t.mem, bus := t.bus, run := t.run }
  | .get => { s with ac := t.ac, drawIndex := t.drawIndex }
  | .put => { s with pc := t.pc, output := t.output, bus := t.bus, run := t.run }
  | .addx | .addy | .subx | .suby | .copyFrX | .copyFrY | .copyFrSp => { s with ac := t.ac }
  | .copyToX | .incx | .decx => { s with x := t.x }
  | .copyToY => { s with y := t.y }
  | .copyToSp => { s with sp := t.sp }
  | .jump | .jumpIfEq | .jumpIfNeq => { s with pc := t.pc, bus := t.bus, run := t.run }
  | .jumpReturn => { s with sp := t.sp, pc := t.pc, mem := t.mem, bus := t.bus, run := t.run }
  | .ret => { s with sp := t.sp, pc := t.pc, bus := t.bus, run := t.run }
  | .push => { s with sp := t.sp, mem := t.mem, bus := t.bus, run := t.run }
  | .pop => { s with sp := t.sp, ac := t.ac, bus := t.bus, run := t.run }
  | .syscall => s.entered t
  | .sysreturn =>
    { s with
      pc := t.pc, ir := t.ir, ac := t.ac, x := t.x, y := t.y, sp := t.sp, ksp := t.ksp, mode := t.mode, ie := t.ie,
      bus := t.bus, run := t.run }
  | .halt => { s with run := t.run }

/-! ### A predicate on the state an operation ends in, by the outcomes of its first access -/

theorem memRead_andThen_state {P : State → Prop} {a : Word} {s : State} {f : Word → State → Res Unit}
    (hraised : ∀ code, P { s with run := .halted code })
    (hdone : P (f (s.cell a) (s.record [.read a])).state) : P ((memRead a s).andThen f).state := by
  cases hcode : (check a s.mode).code with
  | some code => rw [memRead_andThen_refused hcode]; exact hraised code
  | none => rw [memRead_andThen_ok (Verdict.code_eq_none.1 hcode)]; exact hdone

theorem fetchOperand_andThen_state {P : State → Prop} {s : State} {f : Word → State → Res Unit}
    (hraised : ∀ code, P { s with run := .halted code })
    (hdone : P (f (s.cell s.pc) s.operandFetched).state) : P ((fetchOperand s).andThen f).state := by
  rw [fetchOperand, Res.andThen_assoc]
  exact memRead_andThen_state hraised hdone

theorem popValue_andThen_state {P : State → Prop} {s : State} {f : Word → State → Res Unit}
    (hraised : ∀ code, P { s with run := .halted code })
    (hdone : P (f (s.cell s.sp) { s.record [.read s.sp] with sp := s.sp + 1#32 }).state) :
    P ((popValue s).andThen f).state := by
  rw [popValue, Res.andThen_assoc]
  exact memRead_andThen_state hraised hdone

theorem memWrite_andThen_state {P : State → Prop} {a v : Word} {s : State} {f : Unit → State → Res Unit}
    (hraised : ∀ code, P { s with run := .halted code }) (hdone : P (f () (s.written a v)).state) :
    P ((memWrite a v s).andThen f).state := by
  cases hcode : (check a s.mode).code with
  | some code => rw [memWrite_refused hcode]; exact hraised code
  | none => rw [memWrite_ok (Verdict.code_eq_none.1 hcode)]; exact hdone

theorem memWrite_state {P : State → Prop} {a v : Word} {s : State} (hraised : ∀ code, P { s with run := .halted code })
    (hdone : P (s.written a v)) : P (memWrite a v s).state := by
  rw [← Res.andThen_done_unit (memWrite a v s)]
  exact memWrite_andThen_state hraised hdone

theorem returnFromInterrupt_writes (s : State) : WritesOnly .sysreturn s (returnFromInterrupt s).state := by
  rcases returnFromInterrupt_cases s with ⟨_, heq⟩ | ⟨_, _, _, _, _, _, _, _, heq⟩ <;> rw [heq] <;> rfl

theorem putOn_writes {p : Word} {s u : State} (hu : WritesOnly .put s u) : WritesOnly .put s (putOn p u).state := by
  cases hport : portOf p with
  | none => rw [putOn_noPort hport, hu]; rfl
  | some port => rw [putOn_port hport, hu]; rfl

/-- Every instruction writes no more than its entry in the table, also where it halts the machine half way. -/
theorem settle_writes (i : Instr) (s : State) : ∃ r, exec i s = settle r ∧ WritesOnly i s r.state :=
  match i with
  | .loadVal => ⟨_, exec_loadVal s, fetchOperand_andThen_state (fun _ => rfl) rfl⟩
  | .loadAddr =>
    ⟨_, exec_loadAddr s, fetchOperand_andThen_state (fun _ => rfl) (memRead_andThen_state (fun _ => rfl) rfl)⟩
  | .loadIndAddr =>
    ⟨_, exec_loadIndAddr s, fetchOperand_andThen_state (fun _ => rfl)
      (memRead_andThen_state (fun _ => rfl) (memRead_andThen_state (fun _ => rfl) rfl))⟩
  | .loadIdxXAddr =>
    ⟨_, exec_loadIdxXAddr s, fetchOperand_andThen_state (fun _ => rfl) (memRead_andThen_state (fun _ => rfl) rfl)⟩
  | .loadIdxYAddr =>
    ⟨_, exec_loadIdxYAddr s, fetchOperand_andThen_state (fun _ => rfl) (memRead_andThen_state (fun _ => rfl) rfl)⟩
  | .loadSpx => ⟨_, exec_loadSpx s, memRead_andThen_state (fun _ => rfl) rfl⟩
  | .store => ⟨_, exec_store s, fetchOperand_andThen_state (fun _ => rfl) (memWrite_state (fun _ => rfl) rfl)⟩
  | .put => ⟨_, exec_put s, fetchOperand_andThen_state (fun _ => rfl) (putOn_writes rfl)⟩
  | .jump => ⟨_, exec_jump s, memRead_andThen_state (fun _ => rfl) rfl⟩
  | .jumpIfEq => ⟨_, exec_jumpIfEq s, fetchOperand_andThen_state (fun _ => rfl) (by split <;> rfl)⟩
  | .jumpIfNeq => ⟨_, exec_jumpIfNeq s, fetchOperand_andThen_state (fun _ => rfl) (by split <;> rfl)⟩
  | .jumpReturn =>
    ⟨_, exec_jumpReturn s, memWrite_andThen_state (fun _ => rfl) (memRead_andThen_state (fun _ => rfl) rfl)⟩
  | .ret => ⟨_, exec_ret s, popValue_andThen_state (fun _ => rfl) rfl⟩
  | .pop => ⟨_, exec_pop s, popValue_andThen_state (fun _ => rfl) rfl⟩
  | .push => ⟨_, exec_push s, memWrite_state (fun _ => rfl) rfl⟩
  | .syscall => ⟨_, exec_syscall s, triggerInterrupt_frame _ s⟩
  | .sysreturn => ⟨_, exec_sysreturn s, returnFromInterrupt_writes s⟩
  | .get | .addx | .addy | .subx | .suby | .incx | .decx | .copyToX | .copyFrX | .copyToY | .copyFrY | .copyToSp
  | .copyFrSp | .halt => ⟨_, rfl, rfl⟩

theorem exec_writes {i : Instr} {s t : State} (h : exec i s = .next t) : WritesOnly i s t := by
  obtain ⟨r, hexec, hr⟩ := settle_writes i s
  rw [hexec] at h
  cases h
  exact hr

/-- Settles O42: read off the table, row by row. -/
theorem registersChangeOnlyByTheirWriters : Obligations.RegistersChangeOnlyByTheirWriters := by
  intro i s t hexec
  have htable := exec_writes hexec
  cases i <;> rw [htable] <;> simp [State.entered]

/-- Settles O43: read off the table, row by row. -/
theorem controlStateChangesOnlyByEntryAndReturn : Obligations.ControlStateChangesOnlyByEntryAndReturn := by
  intro i s t hexec
  have htable := exec_writes hexec
  cases i <;> rw [htable] <;> simp [State.entered]

end Sys2Proof.Machine
end

section
/-! PROOFS. What every step keeps: the run state and its codes, the counter and the period, the cells as the requests
sent make them, and the legal states (10_state.md R22 to R25, 20_memory.md R48). -/

namespace Sys2Proof.Machine

/-! ### What follows execution -/

/-- Everything that can follow an instruction: nothing, if it halted the machine; else the count, and on a tick in
`(User, true)` an interrupt is taken. -/
theorem afterExecute_cases (u : State) :
    (u.run ≠ .running ∧ afterExecute u = u) ∨
    (u.run = .running ∧ afterExecute u = { u with counter := u.counter + 1 }) ∨
    (u.run = .running ∧ u.mode = .user ∧ u.ie = true ∧ (u.counter + 1) % u.timerValue = 0 ∧
      afterExecute u = (triggerInterrupt 1000#32 { u with counter := u.counter + 1 }).state) := by
  by_cases hrun : u.run = .running
  · have hafter := afterExecute_running hrun
    by_cases htick : (u.counter + 1) % u.timerValue = 0
    · rw [if_pos htick] at hafter
      by_cases hpair : u.mode = .user ∧ u.ie = true
      · exact .inr (.inr ⟨hrun, hpair.1, hpair.2, htick, hafter⟩)
      · rw [triggerInterrupt_dropped (s := { u with counter := u.counter + 1 }) hpair] at hafter
        exact .inr (.inl ⟨hrun, hafter⟩)
    · rw [if_neg htick] at hafter
      exact .inr (.inl ⟨hrun, hafter⟩)
  · exact .inl ⟨hrun, (afterExecuteCountsAndChecksTheTimer u).1 hrun⟩

/-- The machine has halted with a code that the CORE can reach in a run (60_exceptions.md R131). -/
def State.haltedInRun (t : State) : Prop := ∃ code, t.run = .halted code ∧ code.raisedInRun = true

/-- A trigger sends requests checked as Kernel, if any, and goes on or halts with a code of a run. -/
theorem triggerInterrupt_sent (h : Word) (s : State) :
    (∃ qs, Sent .kernel s (triggerInterrupt h s).state qs) ∧
    ((triggerInterrupt h s).state.run = s.run ∨ (triggerInterrupt h s).state.haltedInRun) := by
  by_cases hpair : s.mode = .user ∧ s.ie = true
  · have hsends := triggerInterrupt_taken_sends hpair.1 hpair.2 h
    cases hr : triggerInterrupt h s with
    | done v t =>
      rw [hr] at hsends
      exact ⟨⟨_, hsends.2⟩, .inl hsends.1⟩
    | raised t =>
      rw [hr] at hsends
      obtain ⟨code, n, hcode, hrun, hsent⟩ := hsends
      exact ⟨⟨_, hsent⟩, .inr ⟨code, hrun, hcode⟩⟩
  · rw [triggerInterrupt_dropped hpair]
    exact ⟨⟨[], .nil rfl rfl⟩, .inl rfl⟩

theorem afterExecute_sent (u : State) : ∃ qs, Sent .kernel u (afterExecute u) qs := by
  rcases afterExecute_cases u with ⟨_, heq⟩ | ⟨_, heq⟩ | ⟨_, _, _, _, heq⟩ <;> rw [heq]
  · exact ⟨[], .nil rfl rfl⟩
  · exact ⟨[], .nil rfl rfl⟩
  · obtain ⟨qs, hbus, hmem, hpermitted⟩ := (triggerInterrupt_sent 1000#32 { u with counter := u.counter + 1 }).1
    exact ⟨qs, hbus, hmem, hpermitted⟩

theorem afterExecute_run (u : State) :
    (afterExecute u).run = u.run ∨ (afterExecute u).haltedInRun := by
  rcases afterExecute_cases u with ⟨_, heq⟩ | ⟨_, heq⟩ | ⟨_, _, _, _, heq⟩ <;> rw [heq]
  · exact .inl rfl
  · exact .inl rfl
  · exact (triggerInterrupt_sent 1000#32 { u with counter := u.counter + 1 }).2

/-- The count and the timer leave these alone, whatever is triggered. -/
theorem afterExecute_frame (u : State) :
    (afterExecute u).timerValue = u.timerValue ∧ (afterExecute u).output = u.output ∧
    (afterExecute u).ksp = u.ksp := by
  rcases afterExecute_cases u with ⟨_, heq⟩ | ⟨_, heq⟩ | ⟨_, _, _, _, heq⟩ <;> rw [heq]
  · exact ⟨rfl, rfl, rfl⟩
  · exact ⟨rfl, rfl, rfl⟩
  · rw [triggerInterrupt_frame]
    exact ⟨rfl, rfl, rfl⟩

/-! ### The run state and the counter -/

theorem exec_run {i : Instr} {s t : State} (h : exec i s = .next t) : t.run = s.run ∨ t.haltedInRun := by
  rcases exec_sent h with ⟨hrun, _⟩ | ⟨code, _, hcode, hrun, _⟩
  · exact .inl hrun
  · exact .inr ⟨code, hrun, hcode⟩

theorem step_run {s t : State} (h : step s = .next t) : t.run = .running ∨ t.haltedInRun := by
  obtain ⟨hrun, _, ⟨code, hcode, rfl⟩ | ⟨_, ⟨why, _, rfl⟩ | ⟨i, u, _, hexec, rfl⟩⟩⟩ := step_cases h
  · exact .inr ⟨code, rfl, check_code_raisedInRun hcode⟩
  · exact .inr ⟨.invalidOpcode, rfl, rfl⟩
  · rcases afterExecute_run u with hafter | hhalted
    · rcases exec_run hexec with hu | ⟨code, hu, hcode⟩
      · exact .inl (hafter.trans (hu.trans hrun))
      · exact .inr ⟨code, hafter.trans hu, hcode⟩
    · exact .inr hhalted

/-- Settles O16: the fetch, the instruction and the timer each go on or halt with such a code. -/
theorem haltedMachineHasNoStep : Obligations.HaltedMachineHasNoStep :=
  ⟨fun _ _ => step_of_halted, fun _ _ => step_run, fun _ => rfl⟩

/-- Settles O18: only what follows an instruction counts, and it counts once, if the machine still ran. -/
theorem stepCountsAtMostOneInstruction : Obligations.StepCountsAtMostOneInstruction := by
  intro s t h
  obtain ⟨_, _, ⟨code, _, rfl⟩ | ⟨_, ⟨why, _, rfl⟩ | ⟨i, u, _, hexec, rfl⟩⟩⟩ := step_cases h
  · exact ⟨rfl, nofun, .inl rfl⟩
  · exact ⟨rfl, nofun, .inl rfl⟩
  · obtain ⟨_, _, _, hcounter, htimer, _⟩ := controlStateChangesOnlyByEntryAndReturn i s.fetched u hexec
    obtain ⟨hhalted, hcount, _⟩ := afterExecuteCountsAndChecksTheTimer u
    refine ⟨(afterExecute_frame u).1.trans htimer, ?_⟩
    by_cases hrun : u.run = .running
    · have hone : (afterExecute u).counter = s.counter + 1 := by rw [hcount hrun, hcounter]; rfl
      exact ⟨fun _ => hone, .inr hone⟩
    · rw [hhalted hrun]
      exact ⟨fun hrunning => absurd hrunning hrun, .inl hcounter⟩

/-! ### The requests and the cells -/

theorem fetched_sent {s : State} (h : check s.pc s.mode = .ok) : Sent s.mode s s.fetched [.read s.pc] :=
  ⟨rfl, rfl, List.forall_mem_singleton.2 h⟩

/-- The mode of the accesses is the machine's, except that SYSCALL's frame is checked as Kernel. -/
theorem accessMode_of_ne_syscall {i : Instr} (hi : i ≠ .syscall) (s : State) : accessMode i s = s.mode := by
  unfold accessMode
  split
  · exact absurd rfl hi
  · rfl

/-- A step sends requests checked in the mode it starts in, then those of an interrupt entry, checked as Kernel. -/
theorem step_sent {s t : State} (h : step s = .next t) :
    ∃ u qs rs, Sent s.mode s u qs ∧ Sent .kernel u t rs := by
  obtain ⟨_, _, ⟨code, _, rfl⟩ | ⟨hpc, ⟨why, _, rfl⟩ | ⟨i, u, _, hexec, rfl⟩⟩⟩ := step_cases h
  · exact ⟨s, [], [], .nil rfl rfl, .nil rfl rfl⟩
  · exact ⟨s.fetched, _, [], fetched_sent hpc, .nil rfl rfl⟩
  · obtain ⟨n, hsent⟩ := exec_sent_take hexec
    obtain ⟨rs, hafter⟩ := afterExecute_sent u
    by_cases hi : i = .syscall
    · subst hi
      exact ⟨s.fetched, _, _, fetched_sent hpc, Sent.trans hsent hafter⟩
    · rw [accessMode_of_ne_syscall hi] at hsent
      exact ⟨u, _, rs, (fetched_sent hpc).trans hsent, hafter⟩

theorem Request.permitted_cases {m : Mode} {q : Request} (h : q.permitted m) :
    ∃ a v : Word, check a m = .ok ∧ (q = .read a ∨ q = .write a v) := by
  cases q with
  | read a => exact ⟨a, 0#32, h, .inl rfl⟩
  | write a v => exact ⟨a, v, h, .inr rfl⟩
  | otherKind => exact h.elim

/-- Settles O53. -/
theorem cellsChangeOnlyByTheRequestsSent : Obligations.CellsChangeOnlyByTheRequestsSent := by
  intro s t h
  obtain ⟨u, qs, rs, hqs, hrs⟩ := step_sent h
  refine ⟨qs ++ rs, by rw [hrs.bus, hqs.bus, List.append_assoc], by rw [hrs.mem, hqs.mem, applyWrites_append],
    fun q hq => ?_⟩
  obtain ⟨m, hpermitted⟩ : ∃ m, q.permitted m := by
    rcases List.mem_append.1 hq with hq | hq
    · exact ⟨_, hqs.permitted q hq⟩
    · exact ⟨_, hrs.permitted q hq⟩
  obtain ⟨a, v, hok, hkind⟩ := Request.permitted_cases hpermitted
  obtain ⟨hlo, hhi⟩ := inBounds_iff.1 (check_ok_inBounds hok)
  exact ⟨a, v, hlo, hhi, hkind⟩

theorem Sent.wf {m : Mode} {s t : State} {qs : List Request} (h : Sent m s t qs) (hwf : Memory.wf s.mem = true) :
    Memory.wf t.mem = true := by
  rw [h.mem]
  exact applyWrites_wf hwf fun a v hmem => check_ok_inBounds (h.permitted _ hmem)

/-- Requests checked as Kernel write no user cell. -/
theorem Sent.read_user {s t : State} {qs : List Request} (h : Sent .kernel s t qs) {k : Nat} (hk : k < 1000) :
    Memory.read t.mem k = Memory.read s.mem k := by
  rw [h.mem]
  refine applyWrites_read_of_not_written fun a v hmem => ?_
  have ha := check_kernel_ok_iff.1 (h.permitted _ hmem)
  omega

/-- Requests checked as User write no kernel cell. -/
theorem Sent.read_kernel {s t : State} {qs : List Request} (h : Sent .user s t qs) {k : Nat} (hk : 1000 ≤ k) :
    Memory.read t.mem k = Memory.read s.mem k := by
  rw [h.mem]
  refine applyWrites_read_of_not_written fun a v hmem => ?_
  have ha := check_user_ok_iff.1 (h.permitted _ hmem)
  omega

/-- Settles O55: from Kernel mode both kinds of request are checked as Kernel. -/
theorem handlerChangesNoUserCell : Obligations.HandlerChangesNoUserCell := by
  intro s t hmode h k hk
  obtain ⟨u, qs, rs, hqs, hrs⟩ := step_sent h
  rw [hmode] at hqs
  rw [hrs.read_user hk, hqs.read_user hk]

/-! ### The legal states -/

theorem controlPair_congr {s t : State} (hmode : t.mode = s.mode) (hie : t.ie = s.ie) :
    t.controlPair = s.controlPair := by
  rw [State.controlPair, State.controlPair, hmode, hie]

/-- A trigger keeps the pair, or makes it (Kernel, false). -/
theorem triggerInterrupt_controlPair {s : State} (h : s.controlPair = true) (a : Word) :
    (triggerInterrupt a s).state.controlPair = true := by
  rcases triggerInterrupt_cases a s with ⟨_, heq⟩ | ⟨_, _, _, heq⟩ | ⟨_, _, _, _, _, _, heq⟩ <;> rw [heq]
  · exact h
  · rfl
  · rfl

/-- A return makes the pair (User, true), or halts before it. -/
theorem returnFromInterrupt_controlPair {s : State} (h : s.controlPair = true) :
    (returnFromInterrupt s).state.controlPair = true := by
  rcases returnFromInterrupt_cases s with ⟨_, heq⟩ | ⟨_, _, _, _, _, _, _, _, heq⟩ <;> rw [heq]
  · rfl
  · exact h

theorem exec_controlPair {i : Instr} {s t : State} (h : exec i s = .next t) (hs : s.controlPair = true) :
    t.controlPair = true := by
  by_cases hi : i ∈ [Instr.syscall, .sysreturn]
  · rcases List.mem_pair.1 hi with rfl | rfl
    · cases h
      exact triggerInterrupt_controlPair hs _
    · cases h
      exact returnFromInterrupt_controlPair hs
  · obtain ⟨hpair, _⟩ := controlStateChangesOnlyByEntryAndReturn i s t h
    obtain ⟨hmode, hie⟩ := hpair hi
    rw [controlPair_congr hmode hie, hs]

theorem afterExecute_controlPair {u : State} (h : u.controlPair = true) : (afterExecute u).controlPair = true := by
  rcases afterExecute_cases u with ⟨_, heq⟩ | ⟨_, heq⟩ | ⟨_, _, _, _, heq⟩ <;> rw [heq]
  · exact h
  · exact h
  · exact triggerInterrupt_controlPair (s := { u with counter := u.counter + 1 }) h _

theorem step_controlPair {s t : State} (h : step s = .next t) (hs : s.controlPair = true) : t.controlPair = true := by
  obtain ⟨_, _, ⟨code, _, rfl⟩ | ⟨_, ⟨why, _, rfl⟩ | ⟨i, u, _, hexec, rfl⟩⟩⟩ := step_cases h
  · exact hs
  · exact hs
  · exact afterExecute_controlPair (exec_controlPair hexec hs)

/-- Settles O51: the cells stay canonical because every WRITE sent was let pass. -/
theorem stepKeepsTheMachineLegal : Obligations.StepKeepsTheMachineLegal := by
  intro s t hlegal h
  obtain ⟨hwf, hpair, htimer⟩ := legal_iff.1 hlegal
  obtain ⟨u, qs, rs, hqs, hrs⟩ := step_sent h
  have hperiod : t.timerValue = s.timerValue := (stepCountsAtMostOneInstruction s t h).1
  exact legal_iff.2 ⟨hrs.wf (hqs.wf hwf), step_controlPair h hpair, hperiod ▸ htimer⟩

end Sys2Proof.Machine
end

section
/-! PROOFS. How a step enters and leaves Kernel mode, and what it does to kernel cells and to the output
(60_exceptions.md R135 to R143, 42_io.md R88). -/

namespace Sys2Proof.Machine

/-! ### A trigger in User mode -/

/-- A taken interrupt ends with interrupts disabled, in Kernel mode, and if it does not halt, at the handler. -/
theorem triggerInterrupt_taken_state {s : State} (hmode : s.mode = .user) (hie : s.ie = true) (h : Word) :
    (triggerInterrupt h s).state.ie = false ∧ (triggerInterrupt h s).state.mode = .kernel ∧
    ((triggerInterrupt h s).state.run = .running →
      frameFits s.ksp = true ∧ (triggerInterrupt h s).state = s.interrupted h) := by
  rcases triggerInterrupt_cases h s with ⟨hdropped, _⟩ | ⟨_, _, hfits, heq⟩ | ⟨_, _, _, _, _, _, heq⟩
  · exact absurd ⟨hmode, hie⟩ hdropped
  · rw [heq]
    exact ⟨rfl, rfl, fun _ => ⟨hfits, rfl⟩⟩
  · rw [heq]
    exact ⟨rfl, rfl, nofun⟩

/-- A trigger writes no cell off the frame below KSP. -/
theorem triggerInterrupt_read {h : Word} {s : State} {k : Nat} (hk : ∀ d ∈ frameOffsets, k ≠ (s.ksp - d).toNat) :
    Memory.read (triggerInterrupt h s).state.mem k = Memory.read s.mem k := by
  rcases triggerInterrupt_cases h s with ⟨_, heq⟩ | ⟨_, _, _, heq⟩ | ⟨_, _, n, _, _, _, heq⟩ <;> rw [heq]
  · rfl
  · exact frameWrites_read hk
  · exact frameWrites_take_read hk n

/-- SYSCALL ends in Kernel mode exactly when it is taken. -/
theorem exec_syscall_ie {s u : State} (hmode : s.mode = .user) (hexec : exec .syscall s = .next u)
    (hu : u.mode = .kernel) : s.ie = true := by
  by_contra hie
  rw [exec_syscall_dropped (.inr (Bool.eq_false_iff.2 hie))] at hexec
  cases hexec
  rw [hmode] at hu
  cases hu

/-! ### The mode after an instruction -/

theorem exec_mode {i : Instr} {s u : State} (hexec : exec i s = .next u) (hi : i ∉ [Instr.syscall, .sysreturn]) :
    u.mode = s.mode := ((controlStateChangesOnlyByEntryAndReturn i s u hexec).1 hi).1

/-- SYSRETURN completes on a readable frame, or halts in the mode it started in. -/
theorem exec_sysreturn_cases {s u : State} (hexec : exec .sysreturn s = .next u) :
    (frameReadable s.sp s.mode = true ∧ u = s.returned) ∨ (u.mode = s.mode ∧ u.haltedInRun) := by
  rcases returnFromInterrupt_cases s with ⟨hreadable, heq⟩ | ⟨_, _, code, _, _, _, _, hcode, heq⟩ <;>
    rw [exec_sysreturn, heq] at hexec <;> cases hexec
  · exact .inl ⟨hreadable, rfl⟩
  · exact .inr ⟨rfl, code, rfl, hcode⟩

/-- No instruction but SYSCALL enters Kernel mode. -/
theorem exec_enters_kernel {i : Instr} {s u : State} (hmode : s.mode = .user) (hexec : exec i s = .next u)
    (hu : u.mode = .kernel) : i = .syscall := by
  by_contra hi
  have huser : u.mode = .user := by
    by_cases hreturn : i = .sysreturn
    · subst hreturn
      rcases exec_sysreturn_cases hexec with ⟨_, rfl⟩ | ⟨hkept, _⟩
      · rfl
      · rw [hkept, hmode]
    · rw [exec_mode hexec (by simp [hi, hreturn]), hmode]
  rw [huser] at hu
  cases hu

/-- No instruction but a completed SYSRETURN leaves Kernel mode. -/
theorem exec_leaves_kernel {i : Instr} {s u : State} (hmode : s.mode = .kernel) (hexec : exec i s = .next u)
    (hu : u.mode = .user) : i = .sysreturn ∧ u = s.returned := by
  have hchanged : u.mode ≠ s.mode := by rw [hmode, hu]; nofun
  by_cases hi : i ∈ [Instr.syscall, .sysreturn]
  · rcases List.mem_pair.1 hi with rfl | rfl
    · rw [exec_syscall_dropped (.inl hmode)] at hexec
      cases hexec
      exact absurd rfl hchanged
    · rcases exec_sysreturn_cases hexec with ⟨_, hreturned⟩ | ⟨hkept, _⟩
      · exact ⟨rfl, hreturned⟩
      · exact absurd hkept hchanged
  · exact absurd (exec_mode hexec hi) hchanged

/-- A frame that User mode could read lies in user cells, so an entry that pushes there is refused (R141). -/
theorem returned_ksp_refused {s : State} (hmode : s.mode = .user) (h : frameReadable s.sp s.mode = true) :
    check (s.returned.ksp - 1#32) .kernel ≠ .ok := by
  have hsub : s.sp + 5#32 - 5#32 = s.sp := BitVec.add_sub_cancel s.sp 5#32
  have huser : check (s.returned.ksp - 1#32) .user = .ok := by
    rw [hmode, ← hsub] at h
    exact frameReadable_iff.1 h 1#32 List.mem_cons_self
  have hlow := check_user_ok_iff.1 huser
  intro hkernel
  have hhigh := check_kernel_ok_iff.1 hkernel
  omega

/-- What an instruction that runs on in User mode leaves for a tick: KSP and the enable flag as they were, or, after a
SYSRETURN there, a KSP at which the entry is refused. -/
theorem exec_user_entry {i : Instr} {s u : State} (hmode : s.mode = .user) (hexec : exec i s = .next u)
    (hrun : u.run = .running) (hu : u.mode = .user) :
    (u.ksp = s.ksp ∧ u.ie = s.ie) ∨ check (u.ksp - 1#32) .kernel ≠ .ok := by
  by_cases hcall : i = .syscall
  · subst hcall
    have hie : s.ie = false := by
      by_contra hie
      have hkernel := exec_syscall_taken_mode hmode (Bool.not_eq_false _ ▸ hie) hexec
      rw [hu] at hkernel
      cases hkernel
    rw [exec_syscall_dropped (.inr hie)] at hexec
    cases hexec
    exact .inl ⟨rfl, rfl⟩
  by_cases hreturn : i = .sysreturn
  · subst hreturn
    rcases exec_sysreturn_cases hexec with ⟨hreadable, rfl⟩ | ⟨_, code, hhalted, _⟩
    · exact .inr (returned_ksp_refused hmode hreadable)
    · rw [hhalted] at hrun
      cases hrun
  · obtain ⟨hpair, _, hksp, _⟩ := controlStateChangesOnlyByEntryAndReturn i s u hexec
    exact .inl ⟨hksp hreturn, (hpair (by simp [hcall, hreturn])).2⟩

/-- A refused entry halts, with the cells as they were (R136). -/
theorem triggerInterrupt_refused_state {s : State} (hmode : s.mode = .user) (hie : s.ie = true)
    (h : check (s.ksp - 1#32) .kernel ≠ .ok) (a : Word) :
    (triggerInterrupt a s).state.run ≠ .running ∧ (triggerInterrupt a s).state.mem = s.mem := by
  obtain ⟨code, hcode⟩ := check_refused_code h
  rw [triggerInterrupt_refused hmode hie hcode]
  exact ⟨nofun, rfl⟩

theorem afterExecute_keeps_kernel {u : State} (h : u.mode = .kernel) : (afterExecute u).mode = .kernel := by
  rcases afterExecute_cases u with ⟨_, heq⟩ | ⟨_, heq⟩ | ⟨_, huser, _⟩
  · rw [heq, h]
  · rw [heq, h]
  · rw [h] at huser
    cases huser

/-! ### The step -/

/-- Settles O57: Kernel mode is entered by the SYSCALL that ran or by the tick after the instruction. -/
theorem kernelModeIsEnteredOnlyAtAHandler : Obligations.KernelModeIsEnteredOnlyAtAHandler := by
  intro s t hmode h ht
  have hstays {u : State} (hu : u.mode = s.mode) : u.mode ≠ .kernel := by rw [hu, hmode]; nofun
  obtain ⟨_, _, ⟨code, _, rfl⟩ | ⟨_, ⟨why, _, rfl⟩ | ⟨i, u, hdecode, hexec, rfl⟩⟩⟩ := step_cases h
  · exact absurd ht (hstays rfl)
  · exact absurd ht (hstays rfl)
  have hcalled (hu : u.mode = .kernel) : s.cell s.pc = 29#32 ∧ u.ie = false ∧
      (u.run = .running → u = s.fetched.interrupted 1500#32) := by
    obtain rfl := exec_enters_kernel (s := s.fetched) hmode hexec hu
    obtain ⟨hie, _, hentered⟩ := triggerInterrupt_taken_state (s := s.fetched) hmode
      (exec_syscall_ie (s := s.fetched) hmode hexec hu) 1500#32
    cases hexec
    exact ⟨decodeOpcode_ok_iff.1 hdecode, hie, fun hrun => (hentered hrun).2⟩
  rcases afterExecute_cases u with ⟨hhalted, heq⟩ | ⟨hrun, heq⟩ | ⟨hrun, hu, hie, htick, heq⟩ <;> rw [heq] at ht ⊢
  · exact ⟨(hcalled ht).2.1, fun hrunning => absurd hrunning hhalted⟩
  · obtain ⟨hcell, hie, hentered⟩ := hcalled ht
    rw [hentered hrun]
    exact ⟨rfl, fun _ => ⟨rfl, rfl, .inl ⟨rfl, hcell⟩⟩⟩
  · obtain ⟨hie', _, hentered⟩ :=
      triggerInterrupt_taken_state (s := { u with counter := u.counter + 1 }) hu hie 1000#32
    refine ⟨hie', fun hrunning => ?_⟩
    rw [(hentered hrunning).2]
    rcases exec_user_entry (s := s.fetched) hmode hexec hrun hu with ⟨hksp, _⟩ | hrefused
    · exact ⟨hksp, congrArg (· - 5#32) hksp, .inr ⟨rfl, htick⟩⟩
    · exact absurd hrunning
        (triggerInterrupt_refused_state (s := { u with counter := u.counter + 1 }) hu hie hrefused _).1

/-- Settles O58: what follows an instruction never leaves Kernel mode, and of the instructions only SYSRETURN does. -/
theorem kernelModeIsLeftOnlyBySysreturn : Obligations.KernelModeIsLeftOnlyBySysreturn := by
  intro s t hmode h ht
  have hstays {u : State} (hu : u.mode = s.mode) : u.mode ≠ .user := by rw [hu, hmode]; nofun
  obtain ⟨_, _, ⟨code, _, rfl⟩ | ⟨_, ⟨why, _, rfl⟩ | ⟨i, u, hdecode, hexec, rfl⟩⟩⟩ := step_cases h
  · exact absurd ht (hstays rfl)
  · exact absurd ht (hstays rfl)
  have hreturned (hu : u.mode = .user) : s.cell s.pc = 30#32 ∧ u = s.fetched.returned := by
    obtain ⟨rfl, hu⟩ := exec_leaves_kernel (s := s.fetched) hmode hexec hu
    exact ⟨decodeOpcode_ok_iff.1 hdecode, hu⟩
  rcases afterExecute_cases u with ⟨_, heq⟩ | ⟨_, heq⟩ | ⟨_, hu, hie, _, heq⟩ <;> rw [heq] at ht ⊢
  · obtain ⟨hcell, rfl⟩ := hreturned ht
    exact ⟨hcell, rfl, rfl, rfl⟩
  · obtain ⟨hcell, rfl⟩ := hreturned ht
    exact ⟨hcell, rfl, rfl, rfl⟩
  · rw [triggerInterrupt_taken_mode (s := { u with counter := u.counter + 1 }) hu hie] at ht
    cases ht

/-- A kernel cell that an instruction changes from User mode is a frame cell of a taken SYSCALL. -/
theorem exec_user_changes {i : Instr} {s u : State} {k : Nat} (hmode : s.mode = .user) (hexec : exec i s = .next u)
    (hk : 1000 ≤ k) (hchanged : Memory.read u.mem k ≠ Memory.read s.mem k) :
    s.ie = true ∧ u.mode = .kernel ∧ ∃ d ∈ frameOffsets, k = (s.ksp - d).toNat := by
  by_cases hi : i = .syscall
  · subst hi
    have hie : s.ie = true := by
      by_contra hie
      rw [exec_syscall_dropped (.inr (Bool.eq_false_iff.2 hie))] at hexec
      cases hexec
      exact hchanged rfl
    refine ⟨hie, exec_syscall_taken_mode hmode hie hexec, ?_⟩
    by_contra hoff
    exact hchanged ((otherInstructionsLeaveTheCells s u).1 hexec k fun d hd hkd => hoff ⟨d, hd, hkd⟩)
  · obtain ⟨n, hsent⟩ := exec_sent_take hexec
    rw [accessMode_of_ne_syscall hi, hmode] at hsent
    exact absurd (hsent.read_kernel hk) hchanged

/-- Settles O56: the cell changed while the instruction ran, by a SYSCALL, or in the entry of the tick after it. -/
theorem userStepChangesKernelCellsOnlyInTheFrame : Obligations.UserStepChangesKernelCellsOnlyInTheFrame := by
  intro s t k hmode h hk hchanged
  obtain ⟨_, _, ⟨code, _, rfl⟩ | ⟨_, ⟨why, _, rfl⟩ | ⟨i, u, _, hexec, rfl⟩⟩⟩ := step_cases h
  · exact absurd rfl hchanged
  · exact absurd rfl hchanged
  by_cases hu : Memory.read u.mem k = Memory.read s.mem k
  · rcases afterExecute_cases u with ⟨_, heq⟩ | ⟨_, heq⟩ | ⟨hrun, huser, hie, _, heq⟩ <;> rw [heq] at hchanged ⊢
    · exact absurd hu hchanged
    · exact absurd hu hchanged
    · rcases exec_user_entry (s := s.fetched) hmode hexec hrun huser with ⟨hksp, hie'⟩ | hrefused
      · refine ⟨hie'.symm.trans hie,
          triggerInterrupt_taken_mode (s := { u with counter := u.counter + 1 }) huser hie _, ?_⟩
        by_contra hoff
        refine hchanged ((triggerInterrupt_read fun d hd hkd => hoff ⟨d, hd, ?_⟩).trans hu)
        exact hkd.trans (congrArg (fun sp => (sp - d).toNat) hksp)
      · rw [(triggerInterrupt_refused_state (s := { u with counter := u.counter + 1 }) huser hie hrefused _).2]
          at hchanged
        exact absurd hu hchanged
  · obtain ⟨hie, hkernel, hframe⟩ := exec_user_changes (s := s.fetched) hmode hexec hk hu
    exact ⟨hie, afterExecute_keeps_kernel hkernel, hframe⟩

/-! ### The output -/

theorem portOf_eq_some {p : Word} {port : Port} (h : portOf p = some port) : p = port.number := by
  unfold portOf at h
  split at h
  · next hp => cases h; exact hp
  · split at h
    · next hp => cases h; exact hp
    · cases h

/-- PUT emits the one event of its port, or halts without a trace in the output. -/
theorem exec_put_output {s t : State} (h : exec .put s = .next t) :
    t.output = s.output ∨ ∃ p : Port, s.cell s.pc = p.number ∧ t.output = s.output ++ [⟨p, s.ac⟩] := by
  cases hcode : (check s.pc s.mode).code with
  | some code =>
    rw [exec_put, fetchOperand_andThen_refused hcode] at h
    cases h
    exact .inl rfl
  | none =>
    rw [exec_put, fetchOperand_andThen_ok (Verdict.code_eq_none.1 hcode)] at h
    cases hport : portOf (s.cell s.pc) with
    | none =>
      rw [putOn_noPort hport] at h
      cases h
      exact .inl rfl
    | some port =>
      rw [putOn_port hport] at h
      cases h
      exact .inr ⟨port, portOf_eq_some hport, rfl⟩

/-- Settles O59. -/
theorem outputGrowsOnlyByPut : Obligations.OutputGrowsOnlyByPut := by
  intro s t h
  obtain ⟨_, _, ⟨code, _, rfl⟩ | ⟨_, ⟨why, _, rfl⟩ | ⟨i, u, hdecode, hexec, rfl⟩⟩⟩ := step_cases h
  · exact .inl rfl
  · exact .inl rfl
  rw [(afterExecute_frame u).2.1]
  by_cases hi : i = .put
  · subst hi
    exact (exec_put_output hexec).imp_right fun hemitted => ⟨decodeOpcode_ok_iff.1 hdecode, hemitted⟩
  · obtain ⟨_, _, _, _, _, houtput, _⟩ := controlStateChangesOnlyByEntryAndReturn i s.fetched u hexec
    exact .inl (houtput hi)

end Sys2Proof.Machine
end

section
/-! PROOFS. A handler learns nothing of user memory (70_reset_and_hazards.md R156): two states that differ in user cells
alone step alike, by congruence rules for the shared operations. -/

namespace Sys2Proof.Machine

/-! ### States that differ in user cells alone -/

/-- Canonical cells that read alike from 1000 on. -/
structure CellsAlike (m n : Memory) : Prop where
  wf : Memory.wf m = true
  wf' : Memory.wf n = true
  read : ∀ k, 1000 ≤ k → Memory.read m k = Memory.read n k

/-- The state with other cells. -/
def State.withCells (s : State) (n : Memory) : State := { s with mem := n }

/-- `t` is `s` with other cells, alike from 1000 on. -/
def AlikeAboveUser (s t : State) : Prop := CellsAlike s.mem t.mem ∧ t = s.withCells t.mem

/-- Two operations that end alike: both done, with one value and in a state of `P`, or both raised. -/
def Res.Alike {α : Type} (P : State → Prop) : Res α → Res α → Prop
  | .done v s, .done w t => v = w ∧ AlikeAboveUser s t ∧ P s
  | .raised s, .raised t => AlikeAboveUser s t
  | .done _ _, .raised _ => False
  | .raised _, .done _ _ => False

/-- In Kernel mode whatever is accessed next is accessed alike. -/
def State.inKernel (s : State) : Prop := s.mode = .kernel

theorem Res.Alike.state {α : Type} {P : State → Prop} {r r' : Res α} (h : r.Alike P r') :
    AlikeAboveUser r.state r'.state := by
  cases r <;> cases r'
  · exact h.2.1
  · exact h.elim
  · exact h.elim
  · exact h

/-- What goes on from Kernel mode alike ends alike. -/
theorem Res.Alike.andThen {α β : Type} {P : State → Prop} {r r' : Res α} {f : α → State → Res β}
    (hr : r.Alike State.inKernel r')
    (hf : ∀ v s n, s.mode = .kernel → CellsAlike s.mem n → (f v s).Alike P (f v (s.withCells n))) :
    (r.andThen f).Alike P (r'.andThen f) := by
  cases r <;> cases r'
  case done.done v s w t =>
    obtain ⟨rfl, ⟨hcells, ht⟩, hmode⟩ := hr
    rw [Res.andThen_done, Res.andThen_done, ht]
    exact hf v s t.mem hmode hcells
  case done.raised => exact hr.elim
  case raised.done => exact hr.elim
  case raised.raised => exact hr

/-! ### The shared operations -/

/-- A cell that Kernel mode may read is above the user cells (R43). -/
theorem cell_alike {s : State} {n : Memory} {a : Word} (h : CellsAlike s.mem n) (hok : check a .kernel = .ok) :
    (s.withCells n).cell a = s.cell a :=
  (h.read a.toNat (check_kernel_ok_iff.1 hok).1).symm

theorem memRead_alike {s : State} {n : Memory} (hmode : s.mode = .kernel) (h : CellsAlike s.mem n) (a : Word) :
    (memRead a s).Alike State.inKernel (memRead a (s.withCells n)) := by
  cases hcode : (check a s.mode).code with
  | some code =>
    rw [memRead_refused hcode, memRead_refused (s := s.withCells n) hcode]
    exact ⟨h, rfl⟩
  | none =>
    have hok := Verdict.code_eq_none.1 hcode
    rw [memRead_ok hok, memRead_ok (s := s.withCells n) hok, cell_alike h (hmode ▸ hok)]
    exact ⟨rfl, ⟨h, rfl⟩, hmode⟩

theorem CellsAlike.write {m n : Memory} (h : CellsAlike m n) {a : Word} (ha : inBounds a = true) (v : Word) :
    CellsAlike (Memory.write m a.toNat v) (Memory.write n a.toNat v) where
  wf := Memory.wf_write h.wf (inBounds_lt ha)
  wf' := Memory.wf_write h.wf' (inBounds_lt ha)
  read k hk := by rw [Memory.read_write h.wf, Memory.read_write h.wf', h.read k hk]

theorem memWrite_alike {s : State} {n : Memory} (hmode : s.mode = .kernel) (h : CellsAlike s.mem n) (a v : Word) :
    (memWrite a v s).Alike State.inKernel (memWrite a v (s.withCells n)) := by
  cases hcode : (check a s.mode).code with
  | some code =>
    rw [memWrite_refused hcode, memWrite_refused (s := s.withCells n) hcode]
    exact ⟨h, rfl⟩
  | none =>
    have hok := Verdict.code_eq_none.1 hcode
    rw [memWrite_ok hok, memWrite_ok (s := s.withCells n) hok]
    exact ⟨rfl, ⟨h.write (check_ok_inBounds hok) v, rfl⟩, hmode⟩

theorem fetchOperand_alike {s : State} {n : Memory} (hmode : s.mode = .kernel) (h : CellsAlike s.mem n) :
    (fetchOperand s).Alike State.inKernel (fetchOperand (s.withCells n)) :=
  (memRead_alike hmode h _).andThen fun _ _ _ hmode h => ⟨rfl, ⟨h, rfl⟩, hmode⟩

theorem popValue_alike {s : State} {n : Memory} (hmode : s.mode = .kernel) (h : CellsAlike s.mem n) :
    (popValue s).Alike State.inKernel (popValue (s.withCells n)) :=
  (memRead_alike hmode h _).andThen fun _ _ _ hmode h => ⟨rfl, ⟨h, rfl⟩, hmode⟩

theorem pushValue_alike {s : State} {n : Memory} (hmode : s.mode = .kernel) (h : CellsAlike s.mem n) (v : Word) :
    (pushValue v s).Alike State.inKernel (pushValue v (s.withCells n)) :=
  memWrite_alike (s := { s with sp := s.sp - 1#32 }) hmode h _ v

theorem pushFrame_alike {s : State} {n : Memory} (hmode : s.mode = .kernel) (h : CellsAlike s.mem n) :
    (pushFrame s).Alike State.inKernel (pushFrame (s.withCells n)) :=
  (memWrite_alike hmode h _ _).andThen fun _ _ _ hmode h => (memWrite_alike hmode h _ _).andThen fun _ _ _ hmode h =>
  (memWrite_alike hmode h _ _).andThen fun _ _ _ hmode h => (memWrite_alike hmode h _ _).andThen fun _ _ _ hmode h =>
  (memWrite_alike hmode h _ _).andThen fun _ _ _ hmode h => ⟨rfl, ⟨h, rfl⟩, hmode⟩

theorem popFrame_alike {s : State} {n : Memory} (hmode : s.mode = .kernel) (h : CellsAlike s.mem n) :
    (popFrame s).Alike State.inKernel (popFrame (s.withCells n)) :=
  (memRead_alike hmode h _).andThen fun v s _ hmode h =>
  (memRead_alike (s := { s with y := v }) hmode h _).andThen fun v s _ hmode h =>
  (memRead_alike (s := { s with x := v }) hmode h _).andThen fun v s _ hmode h =>
  (memRead_alike (s := { s with ac := v }) hmode h _).andThen fun v s _ hmode h =>
  (memRead_alike (s := { s with ir := v }) hmode h _).andThen fun _ _ _ hmode h => ⟨rfl, ⟨h, rfl⟩, hmode⟩

/-- A trigger in either mode: a taken one pushes its frame in Kernel mode. -/
theorem triggerInterrupt_alike {s : State} {n : Memory} (h : CellsAlike s.mem n) (a : Word) :
    AlikeAboveUser (triggerInterrupt a s).state (triggerInterrupt a (s.withCells n)).state := by
  by_cases hpair : s.mode = .user ∧ s.ie = true
  · have hpush := (pushFrame_alike (s := enterKernel s) rfl h).andThen (P := State.inKernel)
      (f := fun _ t => .done () { t with pc := a }) fun _ _ _ hmode h => ⟨rfl, ⟨h, rfl⟩, hmode⟩
    rw [triggerInterrupt, triggerInterrupt, if_pos hpair, if_pos (by exact hpair)]
    exact hpush.state
  · rw [triggerInterrupt_dropped hpair, triggerInterrupt_dropped (s := s.withCells n) hpair]
    exact ⟨h, rfl⟩

/-! ### The instructions -/

/-- Nothing is asked of the state an instruction ends in: SYSRETURN leaves Kernel mode. -/
def anyState (_ : State) : Prop := True

theorem Res.Alike.toAnyState {α : Type} {P : State → Prop} {r r' : Res α} (h : r.Alike P r') :
    r.Alike anyState r' := by
  cases r <;> cases r'
  · exact ⟨h.1, h.2.1, trivial⟩
  · exact h.elim
  · exact h.elim
  · exact h

theorem Res.Alike.done {s : State} {n : Memory} (h : CellsAlike s.mem n) :
    (Res.done () s).Alike anyState (Res.done () (s.withCells n)) := ⟨rfl, ⟨h, rfl⟩, trivial⟩

theorem Res.Alike.done_ite {c : Bool} {s t : State} {n : Memory} (hs : CellsAlike s.mem n) (ht : CellsAlike t.mem n) :
    (Res.done () (if c then s else t)).Alike anyState (Res.done () (if c then s.withCells n else t.withCells n)) := by
  cases c
  · exact .done ht
  · exact .done hs

theorem putOn_alike {s : State} {n : Memory} (h : CellsAlike s.mem n) (p : Word) :
    (putOn p s).Alike anyState (putOn p (s.withCells n)) := by
  cases hport : portOf p with
  | none =>
    rw [putOn_noPort hport, putOn_noPort hport]
    exact ⟨h, rfl⟩
  | some port =>
    rw [putOn_port hport, putOn_port hport]
    exact .done h

theorem syscall_alike {s : State} {n : Memory} (hmode : s.mode = .kernel) (h : CellsAlike s.mem n) :
    (triggerInterrupt 1500#32 s).Alike anyState (triggerInterrupt 1500#32 (s.withCells n)) := by
  have hpair : ¬(s.mode = .user ∧ s.ie = true) := by simp [hmode]
  rw [triggerInterrupt_dropped hpair, triggerInterrupt_dropped (s := s.withCells n) hpair]
  exact .done h

/-- From Kernel mode every instruction ends alike, by the rules for the operations it is made of. -/
theorem exec_alike (i : Instr) {s : State} {n : Memory} (hmode : s.mode = .kernel) (h : CellsAlike s.mem n) :
    ∃ r r', exec i s = settle r ∧ exec i (s.withCells n) = settle r' ∧ r.Alike anyState r' :=
  match i with
  | .loadVal =>
    ⟨_, _, exec_loadVal s, exec_loadVal _, (fetchOperand_alike hmode h).andThen fun _ _ _ _ h => .done h⟩
  | .loadAddr =>
    ⟨_, _, exec_loadAddr s, exec_loadAddr _, (fetchOperand_alike hmode h).andThen fun _ _ _ hmode h =>
      (memRead_alike hmode h _).andThen fun _ _ _ _ h => .done h⟩
  | .loadIndAddr =>
    ⟨_, _, exec_loadIndAddr s, exec_loadIndAddr _, (fetchOperand_alike hmode h).andThen fun _ _ _ hmode h =>
      (memRead_alike hmode h _).andThen fun _ _ _ hmode h =>
      (memRead_alike hmode h _).andThen fun _ _ _ _ h => .done h⟩
  | .loadIdxXAddr =>
    ⟨_, _, exec_loadIdxXAddr s, exec_loadIdxXAddr _, (fetchOperand_alike hmode h).andThen fun _ _ _ hmode h =>
      (memRead_alike hmode h _).andThen fun _ _ _ _ h => .done h⟩
  | .loadIdxYAddr =>
    ⟨_, _, exec_loadIdxYAddr s, exec_loadIdxYAddr _, (fetchOperand_alike hmode h).andThen fun _ _ _ hmode h =>
      (memRead_alike hmode h _).andThen fun _ _ _ _ h => .done h⟩
  | .loadSpx => ⟨_, _, exec_loadSpx s, exec_loadSpx _, (memRead_alike hmode h _).andThen fun _ _ _ _ h => .done h⟩
  | .store =>
    ⟨_, _, exec_store s, exec_store _, (fetchOperand_alike hmode h).andThen fun _ _ _ hmode h =>
      (memWrite_alike hmode h _ _).toAnyState⟩
  | .put => ⟨_, _, exec_put s, exec_put _, (fetchOperand_alike hmode h).andThen fun _ _ _ _ h => putOn_alike h _⟩
  | .jump => ⟨_, _, exec_jump s, exec_jump _, (memRead_alike hmode h _).andThen fun _ _ _ _ h => .done h⟩
  | .jumpIfEq =>
    ⟨_, _, exec_jumpIfEq s, exec_jumpIfEq _, (fetchOperand_alike hmode h).andThen fun _ _ _ _ h => .done_ite h h⟩
  | .jumpIfNeq =>
    ⟨_, _, exec_jumpIfNeq s, exec_jumpIfNeq _, (fetchOperand_alike hmode h).andThen fun _ _ _ _ h => .done_ite h h⟩
  | .jumpReturn =>
    ⟨_, _, exec_jumpReturn s, exec_jumpReturn _, (pushValue_alike hmode h _).andThen fun _ _ _ hmode h =>
      (memRead_alike hmode h _).andThen fun _ _ _ _ h => .done h⟩
  | .ret => ⟨_, _, exec_ret s, exec_ret _, (popValue_alike hmode h).andThen fun _ _ _ _ h => .done h⟩
  | .pop => ⟨_, _, exec_pop s, exec_pop _, (popValue_alike hmode h).andThen fun _ _ _ _ h => .done h⟩
  | .push => ⟨_, _, exec_push s, exec_push _, (pushValue_alike hmode h _).toAnyState⟩
  | .syscall => ⟨_, _, exec_syscall s, exec_syscall _, syscall_alike hmode h⟩
  | .sysreturn =>
    ⟨_, _, exec_sysreturn s, exec_sysreturn _, (popFrame_alike hmode h).andThen fun _ _ _ _ h => .done h⟩
  | .halt => ⟨.raised _, .raised _, rfl, rfl, h, rfl⟩
  | .get | .addx | .addy | .subx | .suby | .incx | .decx | .copyToX | .copyFrX | .copyToY | .copyFrY | .copyToSp
  | .copyFrSp => ⟨.done () _, .done () _, rfl, rfl, rfl, ⟨h, rfl⟩, trivial⟩

/-! ### The step -/

theorem afterExecute_alike {u : State} {n : Memory} (h : CellsAlike u.mem n) :
    AlikeAboveUser (afterExecute u) (afterExecute (u.withCells n)) := by
  by_cases hrun : u.run = .running
  · rw [afterExecute_running hrun, afterExecute_running (u := u.withCells n) hrun]
    by_cases htick : (u.counter + 1) % u.timerValue = 0
    · rw [if_pos htick, if_pos (by exact htick)]
      exact triggerInterrupt_alike (s := { u with counter := u.counter + 1 }) h _
    · rw [if_neg htick, if_neg (by exact htick)]
      exact ⟨h, rfl⟩
  · rw [(afterExecuteCountsAndChecksTheTimer u).1 hrun,
      (afterExecuteCountsAndChecksTheTimer (u.withCells n)).1 hrun]
    exact ⟨h, rfl⟩

theorem decodeAndExecute_alike {s : State} {n : Memory} (hmode : s.mode = .kernel) (h : CellsAlike s.mem n) :
    ∃ s' t', decodeAndExecute s = .next s' ∧ decodeAndExecute (s.withCells n) = .next t' ∧ AlikeAboveUser s' t' := by
  cases hdecode : decodeOpcode s.ir with
  | error why =>
    exact ⟨_, _, decodeAndExecute_illegal hdecode, decodeAndExecute_illegal (s := s.withCells n) hdecode, h, rfl⟩
  | ok i =>
    obtain ⟨r, r', hs, ht, hr⟩ := exec_alike i hmode h
    obtain ⟨hcells, hstate⟩ := hr.state
    refine ⟨_, _, decodeAndExecute_ok hdecode hs, decodeAndExecute_ok (s := s.withCells n) hdecode ht, ?_⟩
    rw [hstate]
    exact afterExecute_alike hcells

theorem step_of_timerValue_zero {s : State} (hrun : s.run = .running) (h : s.timerValue = 0) :
    step s = .refused .timerValueNotPositive := by
  simp only [step, hrun, h, if_true]

theorem fetched_withCells {s : State} {n : Memory} (h : CellsAlike s.mem n) (hok : check s.pc .kernel = .ok) :
    (s.withCells n).fetched = s.fetched.withCells n := by
  have hcell : (s.withCells n).cell s.pc = s.cell s.pc := cell_alike h hok
  simp only [State.fetched, State.withCells] at hcell ⊢
  rw [hcell]

/-- A step from Kernel mode fetches alike, so it decodes the same instruction, or stops for the same reason. -/
theorem step_alike {s : State} {n : Memory} (hmode : s.mode = .kernel) (h : CellsAlike s.mem n) :
    (∃ s' t', step s = .next s' ∧ step (s.withCells n) = .next t' ∧ AlikeAboveUser s' t') ∨
    (∃ f, step s = .fault f ∧ step (s.withCells n) = .fault f) ∨
    (∃ r, step s = .refused r ∧ step (s.withCells n) = .refused r) := by
  cases hrun : s.run with
  | halted code => exact .inr (.inl ⟨_, step_of_halted hrun, step_of_halted (s := s.withCells n) hrun⟩)
  | running =>
    by_cases htimer : s.timerValue = 0
    · exact .inr (.inr ⟨_, step_of_timerValue_zero hrun htimer,
        step_of_timerValue_zero (s := s.withCells n) hrun htimer⟩)
    have hpos := Nat.pos_of_ne_zero htimer
    refine .inl ?_
    by_cases hok : check s.pc s.mode = .ok
    · rw [step_fetched hrun hpos hok, step_fetched (s := s.withCells n) hrun hpos hok,
        fetched_withCells h (hmode ▸ hok)]
      exact decodeAndExecute_alike (s := s.fetched) hmode h
    · obtain ⟨code, hcode⟩ := check_refused_code hok
      exact ⟨_, _, step_fetch_refused hrun hpos hcode, step_fetch_refused (s := s.withCells n) hrun hpos hcode, h, rfl⟩

/-- Settles O54. -/
theorem handlerLearnsNothingOfUserMemory : Obligations.HandlerLearnsNothingOfUserMemory := by
  intro s t hs ht hmode ⟨heq, hread⟩
  have heq : t = s.withCells t.mem := heq
  rw [heq]
  rcases step_alike hmode ⟨hs, ht, hread⟩ with ⟨s', t', hs', ht', hcells, hstate⟩ | hstops
  · exact .inl ⟨s', t', hs', ht', hstate, hcells.read⟩
  · exact .inr hstops

end Sys2Proof.Machine
end
